-- ==== Sys2Proof/Word.lean ====
section
/-! DEFINITION. The two word types of the block: a byte and a 16-bit port word (R9, R14, R94, R96). -/

namespace Sys2Proof

/-- A byte: one element of `TB` or `RB`, the shift register, an operand (R14, R28, R33, R37). -/
abbrev Byte := BitVec 8

/-- A command word or a response word: one 16-bit value moved whole (R65, R94, R96). -/
abbrev Word := BitVec 16

end Sys2Proof
end

