-- ==== Sys2Proof/Config.lean ====
section
/-! DEFINITION. What one instance of the block fixes (R9, R10, R262), and the free values: what the spec leaves open. -/

namespace Sys2Proof

/-- The two variants of the block, write-only and read/write (R9, R10). -/
inductive Variant
  | wo
  | rw
deriving DecidableEq, Repr

/-- The names of the 17 delay parameters (R262). -/
inductive DelayParam
  | startSetup | startHold
  | txSetup | txHigh | txLow | txAckSample | txAckSettle
  | stopSetup | stopHigh | stopIdle
  | rxLow | rxHigh | rxAckPre | rxAckSetup | rxAckHigh | rxAckLow | rxAckFinal
deriving DecidableEq, Repr

/-- A parameter that the spec fixes at `a` (R9): it is a field of the configuration record, and its type has one value,
so that no instance outside the spec can be written. -/
structure Fixed {α : Type} (a : α) where
deriving DecidableEq, Repr

/-- The value of a fixed parameter. -/
def Fixed.value {α : Type} {a : α} (_ : Fixed a) : α := a

@[simp] theorem Fixed.value_eq {α : Type} {a : α} (p : Fixed a) : p.value = a := rfl

/-- The parameters of one instance of the block, every row of the table of R9: the variant; the five parameters that
the spec fixes; `F_CLK` in hertz, none where the instance leaves it open; and the 17 delays, each a lower bound in
nanoseconds (so that the half microseconds of R262 are whole numbers). The defaults are R9's and R262's.
No functional rule reads a delay or `F_CLK` (R11, R13). -/
structure Config where
  /-- `VARIANT`. -/
  variant     : Variant := .rw
  /-- `C`: Transfer Buffer capacity in bytes, address byte included. -/
  c           : Fixed 33 := {}
  /-- `RXCAP`: receive buffer capacity in bytes (R33). -/
  rxcap       : Fixed 255 := {}
  /-- `CMDW`: command word width in bits, the width of `Word`. -/
  cmdw        : Fixed 16 := {}
  /-- `RSPW`: response word width in bits, the width of `Word`. -/
  rspw        : Fixed 16 := {}
  /-- `STRETCH_TIMEOUT`: there is no bound on a clock-stretch wait (R216). -/
  stretchTimeout : Fixed (none : Option Nat) := {}
  /-- `F_CLK`, positive (R264). -/
  fClk        : Option PNat := none
  tStartSetup : Nat := 10000
  tStartHold  : Nat := 10000
  tTxSetup    : Nat := 1000
  tTxHigh     : Nat := 3000
  tTxLow      : Nat := 6000
  tTxAckSample : Nat := 3500
  tTxAckSettle : Nat := 15000
  tStopSetup  : Nat := 10000
  tStopHigh   : Nat := 11000
  tStopIdle   : Nat := 50000
  tRxLow      : Nat := 15000
  tRxHigh     : Nat := 15500
  tRxAckPre   : Nat := 23000
  tRxAckSetup : Nat := 2000
  tRxAckHigh  : Nat := 13000
  tRxAckLow   : Nat := 23000
  tRxAckFinal : Nat := 2000
deriving DecidableEq, Repr

namespace Config

/-- The reference instance: variant `RW` and the default delays (R9, R262). -/
def reference : Config := {}

/-- The value of `C` (R9). -/
def capacity (p : Config) : Nat := p.c.value

/-- The value of `RXCAP` (R9, R33). -/
def rxCapacity (p : Config) : Nat := p.rxcap.value

@[simp] theorem capacity_eq (p : Config) : p.capacity = 33 := rfl

@[simp] theorem rxCapacity_eq (p : Config) : p.rxCapacity = 255 := rfl

/-- The value of one delay parameter, in nanoseconds (R262). -/
def delay (c : Config) : DelayParam → Nat
  | .startSetup => c.tStartSetup
  | .startHold => c.tStartHold
  | .txSetup => c.tTxSetup
  | .txHigh => c.tTxHigh
  | .txLow => c.tTxLow
  | .txAckSample => c.tTxAckSample
  | .txAckSettle => c.tTxAckSettle
  | .stopSetup => c.tStopSetup
  | .stopHigh => c.tStopHigh
  | .stopIdle => c.tStopIdle
  | .rxLow => c.tRxLow
  | .rxHigh => c.tRxHigh
  | .rxAckPre => c.tRxAckPre
  | .rxAckSetup => c.tRxAckSetup
  | .rxAckHigh => c.tRxAckHigh
  | .rxAckLow => c.tRxAckLow
  | .rxAckFinal => c.tRxAckFinal

/-- `F_CLK` of an instance that leaves it open (R9, R264): a free value. UNVERIFIED value, log entry 5; safe. -/
opaque freeFClk : PNat

/-- `F_CLK` in hertz (R264). -/
def fClkHz (p : Config) : Nat := p.fClk.getD freeFClk

/-- The least number of `clk` cycles of `DLY(T)`: `ceil(T × F_CLK)` (R264). -/
def delayCycles (p : Config) (t : DelayParam) : Nat :=
  (p.delay t * p.fClkHz + 999999999) / 1000000000

/-- Whether some other participant holds `SCL` low at the `n`-th moment the model has no input for: a free value,
since `BUS` is unconstrained (R26). Log entry 3; safe. -/
opaque freeExtScl : Nat → Bool

/-- The same for `SDA` (R26). Log entry 3; safe. -/
opaque freeExtSda : Nat → Bool

end Config
end Sys2Proof
end

