-- ==== Sys2Proof/Syntax.lean ====
section
/-! DEFINITION. The seven host commands (R98) and the four command errors (R215). -/

namespace Sys2Proof

/-- The block's instructions: one constructor per row of the opcode table (R8, R98). `APPENDS` has no row: it is a
sequence of `APPEND` (R107). -/
inductive Instr
  /-- `INIT` (R181). -/
  | init
  /-- `SETADDR a7`: the 7-bit target address (R182). -/
  | setaddr (a7 : BitVec 7)
  /-- `APPEND b8`: one payload byte (R184). -/
  | append (b8 : Byte)
  /-- `EXECW` (R188). -/
  | execw
  /-- `EXECR n8`: the number of bytes to receive (R191). -/
  | execr (n8 : BitVec 8)
  /-- `RDRX n8`: the index of a received byte (R194). -/
  | rdrx (n8 : BitVec 8)
  /-- `RDSTAT` (R195). -/
  | rdstat
deriving DecidableEq, Repr

/-- The causes of a command error (R215). -/
inductive CmdError
  /-- `op` is not in the opcode map of the variant. -/
  | illegalOpcode
  /-- A must-be-zero operand bit is 1. -/
  | reservedOperand
  /-- `LEN = 0`. -/
  | noAddress
  /-- Index not below `RXCNT`. -/
  | rxIndex
deriving DecidableEq, Repr

end Sys2Proof
end

