-- ==== Sys2Proof/WellFormed.lean ====
section
/-! DEFINITION. Which commands a variant of the block has (R10, R104). Operand ranges are in the operands' types. -/

namespace Sys2Proof

/-- `i` is a command of variant `v`: every command is, but that the write-only variant has no `EXECR` and no `RDRX`
(R10, R98). -/
def Instr.wellFormed (v : Variant) : Instr → Bool
  | .init => true
  | .setaddr _ => true
  | .append _ => true
  | .execw => true
  | .execr _ => v = .rw
  | .rdrx _ => v = .rw
  | .rdstat => true

end Sys2Proof
end

