-- ==== Sys2Proof/Decode.lean ====
section
/-! DEFINITION. The decoder of command words, total on all 65536 words (R99), the encoder, the opcode map as a table
(R98), and the pseudo-instruction `APPENDS` (R107). -/

namespace Sys2Proof

/-- What the decoder answers: a command, or one of the two decode errors (R99, R103). -/
inductive Decoded
  | ok (i : Instr)
  | err (e : CmdError)
deriving DecidableEq, Repr

/-- `cmd[15:8]`, the opcode (R94). -/
def opField (w : Word) : Byte := w.extractLsb' 8 8

/-- `cmd[7:0]`, the operand (R94). -/
def immField (w : Word) : Byte := w.extractLsb' 0 8

/-- Operand form "none": `imm8` must be `0x00` (R95, R103). -/
def decodeNone (imm : Byte) (i : Instr) : Decoded :=
  if imm = 0 then .ok i else .err .reservedOperand

/-- Operand form `a7`: `imm8[7]` must be 0, the address is `imm8[6:0]` (R95, R103). -/
def decodeA7 (imm : Byte) : Decoded :=
  if imm.getLsbD 7 then .err .reservedOperand else .ok (.setaddr (imm.extractLsb' 0 7))

/-- A command that only the read/write variant has (R104). -/
def decodeRwOnly (v : Variant) (i : Instr) : Decoded :=
  match v with
  | .rw => .ok i
  | .wo => .err .illegalOpcode

/-- The decoder: first `op`, then the must-be-zero operand bits (R98, R99, R103, R104). -/
def decode (v : Variant) (w : Word) : Decoded :=
  if opField w = 0x01 then decodeNone (immField w) .init
  else if opField w = 0x02 then decodeA7 (immField w)
  else if opField w = 0x03 then .ok (.append (immField w))
  else if opField w = 0x04 then decodeNone (immField w) .execw
  else if opField w = 0x05 then decodeRwOnly v (.execr (immField w))
  else if opField w = 0x06 then decodeRwOnly v (.rdrx (immField w))
  else if opField w = 0x07 then decodeNone (immField w) .rdstat
  else .err .illegalOpcode

/-- The word `{op, imm8}` of the format `CMD16` (R94). -/
def cmd16 (op imm : Byte) : Word := op ++ imm

/-- The encoder: the word of each command, from the opcode map (R98). -/
def encode : Instr → Word
  | .init => cmd16 0x01 0x00
  | .setaddr a7 => cmd16 0x02 (0#1 ++ a7)
  | .append b8 => cmd16 0x03 b8
  | .execw => cmd16 0x04 0x00
  | .execr n8 => cmd16 0x05 n8
  | .rdrx n8 => cmd16 0x06 n8
  | .rdstat => cmd16 0x07 0x00

/-- The host's reading of the opcode table: the command that the reference instance decodes from the `nbits` bits `w`
(the bits above are 0). A command word is one 16-bit word (R94). -/
def decodeTableWord (nbits w : Nat) : Option Instr :=
  if nbits ≤ 16 then
    if w < 2 ^ nbits then
      match decode Config.reference.variant (BitVec.ofNat 16 w) with
      | .ok i => some i
      | .err _ => none
    else none
  else none

/-- One row of the opcode map (R98): the bits that `mask` selects must equal `bits`. -/
structure OpcodeRow where
  name   : String
  bits   : Word
  mask   : Word
  rwOnly : Bool
deriving DecidableEq, Repr

/-- The opcode map (R98). -/
def opcodeTable : List OpcodeRow :=
  [⟨"INIT", 0x0100, 0xFFFF, false⟩,
   ⟨"SETADDR", 0x0200, 0xFF80, false⟩,
   ⟨"APPEND", 0x0300, 0xFF00, false⟩,
   ⟨"EXECW", 0x0400, 0xFFFF, false⟩,
   ⟨"EXECR", 0x0500, 0xFF00, true⟩,
   ⟨"RDRX", 0x0600, 0xFF00, true⟩,
   ⟨"RDSTAT", 0x0700, 0xFFFF, false⟩]

/-- `w` is matched by row `r` in variant `v` (R98). -/
def OpcodeRow.accepts (r : OpcodeRow) (v : Variant) (w : Word) : Bool :=
  (!r.rwOnly || v = .rw) && w &&& r.mask = r.bits

/-- The name of a command as the opcode map writes it (R98). -/
def Instr.mnemonic : Instr → String
  | .init => "INIT"
  | .setaddr _ => "SETADDR"
  | .append _ => "APPEND"
  | .execw => "EXECW"
  | .execr _ => "EXECR"
  | .rdrx _ => "RDRX"
  | .rdstat => "RDSTAT"

/-- `APPENDS b0, …, bm` expands to `APPEND b0`, …, `APPEND bm`; an empty list to nothing (R107). -/
def expandAppends (bs : List Byte) : List Instr := bs.map .append

/-- A program as the host issues it: the words of a list of commands, in order (R106). -/
def assemble (p : List Instr) : List Word := p.map encode

end Sys2Proof
end

