-- ==== Sys2Proof/Machine/State.lean ====
section
/-! DEFINITION. The state of the block (R20), its environment and ports as inputs and outputs, the reasons a step can
stop, and the state after reset (R44, R240). -/

namespace Sys2Proof
namespace Machine

/-- The two wires: `scl` is the source's CLOCK, `sda` its DATA (R16, R21). -/
inductive Line
  | scl
  | sda
deriving DecidableEq, Repr

/-- The master's drive mode of a line. There is no third mode: the master never drives a line high (R21, R22). -/
inductive Drive
  | released
  | drivenLow
deriving DecidableEq, Repr

/-- The phases of the protocol state machine: seven, and no eighth (R35). -/
inductive Phase
  | idle
  | start
  | byteTransfer
  | ackOk
  | ackFail
  | byteReceive
  | stop
deriving DecidableEq, Repr

/-- `MODE`: which transaction is running (R38). -/
inductive XferMode
  | w
  | r
deriving DecidableEq, Repr

/-- What happens next outside the block's own choice (R12, R26, R240): a step of `BUS` that sets `EXT_SCL` and
`EXT_SDA`, a cycle with `rst` high, or the turn of the block's agent (`HOST` in `IDLE`, `ENGINE` otherwise). -/
inductive Event
  | bus (extScl extSda : Bool)
  | rst
  | block
deriving DecidableEq, Repr

/-- A byte space held sparsely: the bytes that differ from what an unlisted index reads as. -/
abbrev Memory := List Host.Cell

/-- The state of the block: the sixteen registers of R20, and nothing else (R20, R45). -/
structure Block where
  /-- `DRV_SCL` (R21). -/
  drvScl : Drive
  /-- `DRV_SDA` (R21). -/
  drvSda : Drive
  /-- `TB[0..32]` (R28). -/
  tb     : Memory
  /-- `LEN`, 0 to 33 (R29). -/
  len    : BitVec 6
  /-- `RB[0..254]` (R33). -/
  rb     : Memory
  /-- `RXCNT` (R34). -/
  rxcnt  : BitVec 8
  /-- `PH` (R35). -/
  ph     : Phase
  /-- `U`, the step index inside the phase (R36). -/
  u      : BitVec 5
  /-- `K`, the index of the byte being transmitted (R36). -/
  k      : BitVec 6
  /-- `I`, the index of the bit being transferred (R36). -/
  i      : BitVec 3
  /-- `J`, the index of the byte being received (R36). -/
  j      : BitVec 8
  /-- `SH`, the byte in flight (R37). -/
  sh     : Byte
  /-- `MODE` (R38). -/
  mode   : XferMode
  /-- `NREQ` (R38). -/
  nreq   : BitVec 8
  /-- `ACKF`, the last sampled acknowledgment level: false is LOW (0, ACK), true is HIGH (1, NACK) (R39). -/
  ackf   : Bool
  /-- `LASTOK` (R40). -/
  lastok : Bool
deriving DecidableEq, Repr

/-- The state of the whole machine that `step` moves: the block, the agent `BUS` (R24), the host side of the port, the
instance, and the model's own fields. What is not of the block is no part of `Block` (R45). -/
structure State extends Block where
  /-- `EXT_SCL`, state of the agent `BUS` (R24). -/
  extScl : Bool
  /-- `EXT_SDA`, state of the agent `BUS` (R24). -/
  extSda : Bool
  /-- The words `HOST` will offer on the port `cmd`, in order (R90, R91, R106; log entry 4). -/
  cmds   : List Word
  /-- The port `rsp`: the response word that the last step put out, if it put one out (R90, R92, R96; log entry
  7: DEDUCED). -/
  rsp    : Option Word
  /-- The configuration of the instance; no step changes it (R9, R45; log entry 8: DESIGN CHOICE). -/
  cfg    : Config
  /-- Who moves next, and what the outside does (R12, R26, R240; log entry 6: DESIGN CHOICE). -/
  sched  : List Event
  /-- The number of free `BUS` values used so far: the model's own counter (log entry 3). -/
  tick   : Nat
deriving DecidableEq, Repr

/-- Why the machine stops with a fault. Both are of indices that the spec gives no register for, and no state that
meets the invariant of R43 raises either. -/
inductive Fault
  /-- Raised by a read of `TB[n]` with `n > 32`: there is no such register (R28, R60). Safe. -/
  | tbIndex
  /-- Raised by a write of `RB[n]` with `n > 254`: there is no such register (R33, R60). Safe. -/
  | rbIndex
deriving DecidableEq, Repr

/-- Why the model gives a situation no meaning. -/
inductive Refusal
  /-- Raised by `exec` alone, for a command without a meaning; there is none. Safe. -/
  | notModelled (mnemonic : String)
  /-- Raised by every command run while `PH` is not `IDLE`: `HOST` has no such step (R93, U16). `step` never does
  this: it lets the engine run instead. Safe. -/
  | hostBusy
  /-- Raised by `SAMPLE` or `WAITH` of a line the master drives low (R125, U2). Safe. -/
  | readOfDrivenLine
  /-- Raised by the engine at a position `(PH, U)` that is no labelled step (R36). Safe. -/
  | noSuchStep
deriving DecidableEq, Repr

/-- The block right after reset (R44). `TB`, `RB`, `SH` and `ACKF` are unspecified there and hold zeros here (log
entry 1: DESIGN CHOICE, unsafe). -/
def Block.reset : Block where
  drvScl := .released
  drvSda := .released
  tb     := []
  len    := 0
  rb     := []
  rxcnt  := 0
  ph     := .idle
  u      := 0
  k      := 0
  i      := 0
  j      := 0
  sh     := 0
  mode   := .w
  nreq   := 0
  ackf   := false
  lastok := false

/-- The machine right after reset: the block as R44 says, of the reference instance (R9), with no command offered and
no event scheduled. The block does not reset `EXT_SCL` and `EXT_SDA` (R44); they are false here (log entry 2: DESIGN
CHOICE, unsafe). -/
def State.reset : State where
  toBlock := Block.reset
  extScl := false
  extSda := false
  cmds   := []
  rsp    := none
  cfg    := Config.reference
  sched  := []
  tick   := 0

end Machine
end Sys2Proof
end

