-- ==== Sys2Proof/Machine/Flags.lean ====
section
/-! DEFINITION. The flags and the status view (R39 to R42), the response word (R96) and the error codes (R215). -/

namespace Sys2Proof
namespace Machine

/-- `AV`: the test `LEN >= 1`; not a register (R41). -/
def addressValid (s : State) : Bool := 1 ≤ s.len.toNat

/-- `RWV`: 1 if the variant is `RW` (R42). -/
def rwVariant (s : State) : Bool := s.cfg.variant = .rw

/-- `STATUS = {00000, RWV, LASTOK, AV}`: a view that holds nothing of its own (R42). -/
def status (s : State) : Byte :=
  0#5 ++ BitVec.ofBool (rwVariant s) ++ BitVec.ofBool s.lastok ++ BitVec.ofBool (addressValid s)

/-- The response word `{E, 000000, R, V}` (R96). -/
def responseWord (e r : Bool) (v : Byte) : Word :=
  BitVec.ofBool e ++ 0#6 ++ BitVec.ofBool r ++ v

/-- The error codes (R215). -/
def errorCode : CmdError → Byte
  | .illegalOpcode => 0x01
  | .reservedOperand => 0x02
  | .noAddress => 0x03
  | .rxIndex => 0x04

end Machine
end Sys2Proof
end

