-- ==== Sys2Proof/Machine/Operands.lean ====
section
/-! DEFINITION. The address byte and its direction bit (R30, R183), and single bits of a byte (R14, R37). -/

namespace Sys2Proof
namespace Machine

/-- `{a7, dir}`: the address in bits 7 to 1, the direction in bit 0, 0 for write and 1 for read (R30, R183). -/
def addressByte (a7 : BitVec 7) (dir : BitVec 1) : Byte := a7 ++ dir

/-- `v & 0xFE`: direction write (R188, R189). -/
def withDirWrite (v : Byte) : Byte := v &&& 0xFE

/-- `v | 0x01`: direction read (R191). -/
def withDirRead (v : Byte) : Byte := v ||| 0x01

/-- `v[n]`, a single bit (R14). -/
def bitAt (v : Byte) (n : BitVec 3) : Bool := v.getLsbD n.toNat

/-- `v` with bit `n` replaced by `b` (`SH[I] <- b`, R37, R153). -/
def setBitAt (v : Byte) (n : BitVec 3) (b : Bool) : Byte :=
  (v &&& ~~~(1#8 <<< n.toNat)) ||| (BitVec.ofBool b).zeroExtend 8 <<< n.toNat

end Machine
end Sys2Proof
end

