-- ==== Sys2Proof/Machine/Ops.lean ====
section
/-! DEFINITION. The named operations over the two byte spaces, the lines, the sequencer position and the port, and the
block's exceptions: a command error (R214), an acknowledgment failure (R152, R219), reset (R240, R242). -/

namespace Sys2Proof
namespace Machine

/-! ### Byte spaces -/

/-- What an index that nothing has written reads as. The spec leaves `TB` and `RB` unspecified at reset (R44):
DESIGN CHOICE, log entry 1; unsafe. -/
def Memory.unlisted : Byte := 0

/-- `MemRead(S, a, 1)` (R15). -/
def Memory.read : Memory → Nat → Byte
  | [], _ => Memory.unlisted
  | c :: m, a => if c.1 = a then c.2 else Memory.read m a

/-- Takes index `a` off the list. -/
def Memory.erase (m : Memory) (a : Nat) : Memory := m.filter fun c => c.1 ≠ a

/-- Puts index `a` on the list, before the first greater index. -/
def Memory.insert : Memory → Nat → Byte → Memory
  | [], a, v => [(a, v)]
  | c :: m, a, v => if a < c.1 then (a, v) :: c :: m else c :: Memory.insert m a v

/-- `MemWrite(S, a, 1, v)` (R15), keeping the canonical form: an index that reads as an unlisted one is not listed. -/
def Memory.write (m : Memory) (a : Nat) (v : Byte) : Memory :=
  if v = Memory.unlisted then Memory.erase m a else Memory.insert (Memory.erase m a) a v

/-- The indices of the list rise strictly. -/
def Memory.rising : Memory → Bool
  | [] => true
  | c :: m => m.all (fun d => c.1 < d.1) && Memory.rising m

/-- The canonical form of a space of `size` bytes: rising indices below `size`, and no entry that an unlisted index
reads as. -/
def Memory.wf (size : Nat) (m : Memory) : Bool :=
  Memory.rising m && m.all fun c => c.1 < size && c.2 ≠ Memory.unlisted

/-- `TB[n]`; there are 33 registers (R28). -/
def readTb (s : State) (n : Nat) : Option Byte :=
  if n < s.cfg.capacity then some (Memory.read s.tb n) else none

/-- `TB[n] <- v`, for `n <= 32` (R28, R61). -/
def writeTb (n : Nat) (v : Byte) (s : State) : State := { s with tb := Memory.write s.tb n v }

/-- `RB[n]`; there are 255 registers (R33). -/
def readRb (s : State) (n : Nat) : Option Byte :=
  if n < s.cfg.rxCapacity then some (Memory.read s.rb n) else none

/-- `RB[n] <- v`, for `n <= 254` (R33, R62). -/
def writeRb (n : Nat) (v : Byte) (s : State) : State := { s with rb := Memory.write s.rb n v }

/-- `LEN <- n` (R29). -/
def setLen (n : BitVec 6) (s : State) : State := { s with len := n }

/-! ### Lines -/

/-- `DRV_l` (R21). -/
def driveOf (s : State) : Line → Drive
  | .scl => s.drvScl
  | .sda => s.drvSda

/-- `EXT_l` (R24). -/
def extOf (s : State) : Line → Bool
  | .scl => s.extScl
  | .sda => s.extSda

/-- `level(l)`, the wired-AND of all pulls: true is HIGH (1), false is LOW (0) (R27; pull-ups are present, R25, log
entry 13). -/
def level (s : State) (l : Line) : Bool := !(driveOf s l = .drivenLow || extOf s l)

/-- `DRV_l <- d` (R23). -/
def setDrive (l : Line) (d : Drive) (s : State) : State :=
  match l with
  | .scl => { s with drvScl := d }
  | .sda => { s with drvSda := d }

/-! ### Port -/

/-- `respond(E, R, V)`: the step puts one response word out (R15, R92, R96). -/
def respond (e r : Bool) (v : Byte) (s : State) : State := { s with rsp := some (responseWord e r v) }

/-- A command is run only in `IDLE`; in another phase `HOST` has no such step (R93, R180;
log entry 11: DEDUCED, safe). -/
def whenIdle (s : State) (k : Host.Outcome State Fault Refusal) : Host.Outcome State Fault Refusal :=
  if s.ph = .idle then k else .refused .hostBusy

/-! ### Exceptions and the ends of a transaction -/

/-- `raise CmdError(code)`: the error response, and no other change (R15, R214, R220). -/
def raiseCmdError (e : CmdError) (s : State) : State := respond true false (errorCode e) s

/-- The start of a transaction: `MODE <- m ; PH <- START ; U <- 0` (R188, R191). -/
def startTransaction (m : XferMode) (s : State) : State := { s with mode := m, ph := .start, u := 0 }

/-- `NREQ <- n` (R38, R191). -/
def setNreq (n : BitVec 8) (s : State) : State := { s with nreq := n }

/-- `raise AckFail`: enter the phase `ACK_FAIL` (R15, R145, R211). -/
def raiseAckFail (s : State) : State := { s with ph := .ackFail, u := 0 }

/-- The end of every transaction attempt: `LASTOK`, `RXCNT` after a read, and the buffer reset (R31, R40, R152,
R158). What nothing writes stays (log entry 10: DEDUCED). -/
def endTransaction (ok : Bool) (count : BitVec 8) (s : State) : State :=
  { s with
    lastok := ok
    rxcnt := if s.mode = .r then count else s.rxcnt
    len := 0
    ph := .idle }

/-- What an acknowledgment failure changes, and its response (R152, R219). It saves nothing, and control returns to
`IDLE` in the same step (R221). -/
def takeAckFail (s : State) : State := respond false false 0x00 (endTransaction false 0 s)

/-- The end of a transaction that reached STOP, and its response (R158). -/
def takeStopDone (s : State) : State :=
  respond false true (if s.mode = .r then s.nreq else 0x00) (endTransaction true s.nreq s)

/-- One cycle with `rst` high: the block's registers take the values of R44 and no response comes out (R240, R242).
The unspecified ones take those of `Block.reset` (log entry 1). -/
def resetBlock (s : State) : State := { s with toBlock := Block.reset, rsp := none }

end Machine
end Sys2Proof
end

