-- ==== Sys2Proof/Machine/Readout.lean ====
section
/-! DEFINITION. The commands that read the block out: `RDRX`, `RDSTAT` (R194, R195). -/

namespace Sys2Proof
namespace Machine

/-- `RDRX n8`: illegal in the write-only variant; a command error when the index is not below `RXCNT`; else the
received byte (R104, R194). -/
def execRdrx (n8 : BitVec 8) (s : State) : Host.Outcome State Fault Refusal :=
  whenIdle s <|
    match s.cfg.variant with
    | .wo => .next (raiseCmdError .illegalOpcode s)
    | .rw =>
      if s.rxcnt ≤ n8 then .next (raiseCmdError .rxIndex s)
      else .next (respond false true (Memory.read s.rb n8.toNat) s)

/-- `RDSTAT`: the status view (R195). -/
def execRdstat (s : State) : Host.Outcome State Fault Refusal :=
  whenIdle s <| .next <| respond false true (status s) s

end Machine
end Sys2Proof
end

