-- ==== Sys2Proof/Machine/Setup.lean ====
section
/-! DEFINITION. The commands that set the block up: `INIT`, `SETADDR`, `APPEND` (R181 to R186). -/

namespace Sys2Proof
namespace Machine

/-- `INIT`: both lines released in one step (R181). -/
def execInit (s : State) : Host.Outcome State Fault Refusal :=
  whenIdle s <| .next <| respond false true 0x00 <| setDrive .scl .released <| setDrive .sda .released s

/-- `SETADDR a7`: the buffer holds the address byte alone, direction write (R182, R183). -/
def execSetaddr (a7 : BitVec 7) (s : State) : Host.Outcome State Fault Refusal :=
  whenIdle s <| .next <| respond false true (addressByte a7 0) <|
    setLen 1 <| writeTb 0 (addressByte a7 0) <| setLen 0 s

/-- `APPEND b8`: a command error with no address set; stored below the capacity; dropped in silence at it
(R184, R185, R186). -/
def execAppend (b8 : Byte) (s : State) : Host.Outcome State Fault Refusal :=
  whenIdle s <|
    if s.len = 0 then .next (raiseCmdError .noAddress s)
    else if s.len.toNat < s.cfg.capacity then
      .next (respond false true 0x00 (setLen (s.len + 1) (writeTb s.len.toNat b8 s)))
    else .next (respond false true 0x00 s)

end Machine
end Sys2Proof
end

