-- ==== Sys2Proof/Machine/Transfer.lean ====
section
/-! DEFINITION. The commands that start a transaction: `EXECW`, `EXECR` (R188 to R193). The engine runs it. -/

namespace Sys2Proof
namespace Machine

/-- `EXECW`: a command error with no address set; else the direction bit is forced to write in the read/write variant
and the transaction starts (R188, R189). -/
def execExecw (s : State) : Host.Outcome State Fault Refusal :=
  whenIdle s <|
    if s.len = 0 then .next (raiseCmdError .noAddress s)
    else match s.cfg.variant with
      | .rw => .next (startTransaction .w (writeTb 0 (withDirWrite (Memory.read s.tb 0)) s))
      | .wo => .next (startTransaction .w s)

/-- `EXECR n8`: illegal in the write-only variant; a command error with no address set; else the direction bit is set
to read and the transaction starts (R104, R191; log entry 19). -/
def execExecr (n8 : BitVec 8) (s : State) : Host.Outcome State Fault Refusal :=
  whenIdle s <|
    match s.cfg.variant with
    | .wo => .next (raiseCmdError .illegalOpcode s)
    | .rw =>
      if s.len = 0 then .next (raiseCmdError .noAddress s)
      else .next (startTransaction .r (setNreq n8 (writeTb 0 (withDirRead (Memory.read s.tb 0)) s)))

end Machine
end Sys2Proof
end

