-- ==== Sys2Proof/Machine/Dispatch.lean ====
section
/-! DEFINITION. The effect of each command when it is accepted (R180): one arm per constructor. -/

namespace Sys2Proof
namespace Machine

def exec (i : Instr) (s : State) : Host.Outcome State Fault Refusal :=
  match i with
  | .init => Sys2Proof.Machine.execInit s
  | .setaddr a7 => Sys2Proof.Machine.execSetaddr a7 s
  | .append b8 => Sys2Proof.Machine.execAppend b8 s
  | .execw => Sys2Proof.Machine.execExecw s
  | .execr n8 => Sys2Proof.Machine.execExecr n8 s
  | .rdrx n8 => Sys2Proof.Machine.execRdrx n8 s
  | .rdstat => Sys2Proof.Machine.execRdstat s

end Machine
end Sys2Proof
end

