-- ==== Sys2Proof/Machine/LineDriver.lean ====
section
/-! DEFINITION. The Line Driver's micro-operations (R120 to R130). -/

namespace Sys2Proof
namespace Machine

/-- One micro-operation, with its operand; `book` is a bookkeeping step, which does not touch the wire (R120, R141). -/
inductive MicroOp
  | dl (l : Line)
  | rl (l : Line)
  | setSda (b : Bool)
  | sample (l : Line)
  | waitH (l : Line)
  | dly (t : DelayParam)
  | book
deriving DecidableEq, Repr

/-- How a micro-operation ends: done, with the sampled bit (false where it samples nothing); held (R126); or refused,
a read of a driven line (R125; log entry 12). -/
inductive MicroEnd
  | done (s : State) (b : Bool)
  | held
  | refused
deriving DecidableEq, Repr

/-- `DL(l)` (R121). -/
def driveLow (l : Line) (s : State) : State := setDrive l .drivenLow s

/-- `RL(l)` (R122). -/
def release (l : Line) (s : State) : State := setDrive l .released s

/-- `SETSDA(b)`: driven low for 0, released for 1 (R123). -/
def setSda (b : Bool) (s : State) : State := setDrive .sda (if b then .released else .drivenLow) s

/-- `SAMPLE(l)`: the level, once; valid only while the line is released (R124, R125). -/
def sample (l : Line) (s : State) : MicroEnd :=
  if driveOf s l = .released then .done s (level s l) else .refused

/-- `WAITH(l)`: completes when the level is HIGH, is held while it is LOW; valid only while the line is released
(R125, R126). -/
def waitHigh (l : Line) (s : State) : MicroEnd :=
  if driveOf s l = .released then
    if level s l then .done s false else .held
  else .refused

/-- `DLY(T)`: no state change; `T` is a lower bound on real time, which is not in the state (R13, R127;
log entry 14). -/
def delayStep (_ : DelayParam) (s : State) : State := s

/-- Runs one micro-operation (R120). -/
def MicroOp.run (o : MicroOp) (s : State) : MicroEnd :=
  match o with
  | .dl l => .done (driveLow l s) false
  | .rl l => .done (release l s) false
  | .setSda b => .done (Machine.setSda b s) false
  | .sample l => Machine.sample l s
  | .waitH l => waitHigh l s
  | .dly t => .done (delayStep t s) false
  | .book => .done s false

/-- The line event of a micro-operation: every `DL`, `RL` and `SETSDA` is one, whether or not it changes the mode
(R130). -/
def MicroOp.lineEvent : MicroOp → Option (Line × Drive)
  | .dl l => some (l, .drivenLow)
  | .rl l => some (l, .released)
  | .setSda b => some (.sda, if b then .released else .drivenLow)
  | .sample _ => none
  | .waitH _ => none
  | .dly _ => none
  | .book => none

/-- The least real time of a micro-operation in nanoseconds, as far as the spec gives it (R127, R264). -/
def MicroOp.minTime (c : Config) : MicroOp → Nat
  | .dl _ => 0
  | .rl _ => 0
  | .setSda _ => 0
  | .sample _ => 0
  | .waitH _ => 0
  | .dly t => c.delay t
  | .book => 0

end Machine
end Sys2Proof
end

