-- ==== Sys2Proof/Machine/Engine.lean ====
section
/-! DEFINITION. The Protocol Engine: the labelled steps of its phases, what each does to the wire, and where each goes
next (R140 to R158). -/

namespace Sys2Proof
namespace Machine

/-- The labelled steps (R142, R144, R145, R147, R152 to R155, R157, R158). -/
inductive Label
  | st0 | st1 | st2 | st3 | st4
  | tx0 | tx1 | tx2 | tx3 | tx4 | tx5 | tx6 | tx7 | tx8 | tx9
  | ak0 | ak1 | ak2
  | af0
  | rx0 | rx1 | rx2 | rx3 | rx4 | rx5 | rx6 | rx7 | rx8 | rx9 | rx10 | rx11 | rx12 | rx13 | rx14 | rx15 | rx16 | rx17
  | sp0 | sp1 | sp2 | sp3 | sp4 | sp5 | sp6
deriving DecidableEq, Repr

/-- The labelled list of a phase, in order; `U` is the index of a step in it (R36, R141). -/
def stepList : Phase → List Label
  | .idle => []
  | .start => [.st0, .st1, .st2, .st3, .st4]
  | .byteTransfer => [.tx0, .tx1, .tx2, .tx3, .tx4, .tx5, .tx6, .tx7, .tx8, .tx9]
  | .ackOk => [.ak0, .ak1, .ak2]
  | .ackFail => [.af0]
  | .byteReceive =>
      [.rx0, .rx1, .rx2, .rx3, .rx4, .rx5, .rx6, .rx7, .rx8,
       .rx9, .rx10, .rx11, .rx12, .rx13, .rx14, .rx15, .rx16, .rx17]
  | .stop => [.sp0, .sp1, .sp2, .sp3, .sp4, .sp5, .sp6]

/-- The position `(PH, U)` of each label: `TX4` means `PH = BYTE_TRANSFER`, `U = 4` (R36). -/
def Label.home : Label → Phase × BitVec 5
  | .st0 => (.start, 0)
  | .st1 => (.start, 1)
  | .st2 => (.start, 2)
  | .st3 => (.start, 3)
  | .st4 => (.start, 4)
  | .tx0 => (.byteTransfer, 0)
  | .tx1 => (.byteTransfer, 1)
  | .tx2 => (.byteTransfer, 2)
  | .tx3 => (.byteTransfer, 3)
  | .tx4 => (.byteTransfer, 4)
  | .tx5 => (.byteTransfer, 5)
  | .tx6 => (.byteTransfer, 6)
  | .tx7 => (.byteTransfer, 7)
  | .tx8 => (.byteTransfer, 8)
  | .tx9 => (.byteTransfer, 9)
  | .ak0 => (.ackOk, 0)
  | .ak1 => (.ackOk, 1)
  | .ak2 => (.ackOk, 2)
  | .af0 => (.ackFail, 0)
  | .rx0 => (.byteReceive, 0)
  | .rx1 => (.byteReceive, 1)
  | .rx2 => (.byteReceive, 2)
  | .rx3 => (.byteReceive, 3)
  | .rx4 => (.byteReceive, 4)
  | .rx5 => (.byteReceive, 5)
  | .rx6 => (.byteReceive, 6)
  | .rx7 => (.byteReceive, 7)
  | .rx8 => (.byteReceive, 8)
  | .rx9 => (.byteReceive, 9)
  | .rx10 => (.byteReceive, 10)
  | .rx11 => (.byteReceive, 11)
  | .rx12 => (.byteReceive, 12)
  | .rx13 => (.byteReceive, 13)
  | .rx14 => (.byteReceive, 14)
  | .rx15 => (.byteReceive, 15)
  | .rx16 => (.byteReceive, 16)
  | .rx17 => (.byteReceive, 17)
  | .sp0 => (.stop, 0)
  | .sp1 => (.stop, 1)
  | .sp2 => (.stop, 2)
  | .sp3 => (.stop, 3)
  | .sp4 => (.stop, 4)
  | .sp5 => (.stop, 5)
  | .sp6 => (.stop, 6)

/-- The step that `upc` names, if it names one (R36). -/
def labelAt (ph : Phase) (u : BitVec 5) : Option Label := (stepList ph)[u.toNat]?

/-- `upc` moves to the next label in the list (R141). -/
def advance (s : State) : State := { s with u := s.u + 1 }

/-- `upc <- L`, for the first step of a phase (R15, R36). -/
def enterPhase (p : Phase) (s : State) : State := { s with ph := p, u := 0 }

/-- `upc <- TX6` or `upc <- RX6`: on to step `n` of the same phase (R144, R153). -/
def jump (n : BitVec 5) (s : State) : State := { s with u := n }

/-- The byte being received is the last one asked for, `J = NREQ - 1` (R154). -/
def lastByte (s : State) : Bool := s.j = s.nreq - 1

/-- The micro-operation of each labelled step, in a given state (R142, R144, R145, R147, R152 to R154, R157). -/
def microOp (l : Label) (s : State) : MicroOp :=
  match l with
  | .st0 => .dl .sda
  | .st1 => .dly .startSetup
  | .st2 => .dl .scl
  | .st3 => .dly .startHold
  | .st4 => .book
  | .tx0 => .setSda (bitAt s.sh s.i)
  | .tx1 => .dly .txSetup
  | .tx2 => .rl .scl
  | .tx3 => .dly .txHigh
  | .tx4 => .dl .scl
  | .tx5 => .dly .txLow
  | .tx6 => .rl .sda
  | .tx7 => .rl .scl
  | .tx8 => .dly .txAckSample
  | .tx9 => .sample .sda
  | .ak0 => .dl .scl
  | .ak1 => .dly .txAckSettle
  | .ak2 => .book
  | .af0 => .book
  | .rx0 => .dly .rxLow
  | .rx1 => .rl .scl
  | .rx2 => .waitH .scl
  | .rx3 => .sample .sda
  | .rx4 => .dly .rxHigh
  | .rx5 => .dl .scl
  | .rx6 => .book
  | .rx7 => .dly .rxAckPre
  | .rx8 => if lastByte s then .book else .dl .sda
  | .rx9 => .dly .rxAckSetup
  | .rx10 => .rl .scl
  | .rx11 => .waitH .scl
  | .rx12 => .dly .rxAckHigh
  | .rx13 => .dl .scl
  | .rx14 => .dly .rxAckLow
  | .rx15 => .rl .sda
  | .rx16 => .dly .rxAckFinal
  | .rx17 => .book
  | .sp0 => .dl .sda
  | .sp1 => .dly .stopSetup
  | .sp2 => .rl .scl
  | .sp3 => .dly .stopHigh
  | .sp4 => .rl .sda
  | .sp5 => .dly .stopIdle
  | .sp6 => .book

/-- `SH <- TB[n]`, `K <- n`, `I <- 7`, and on to `TX0` (R142, R148). There is no `TB[n]` for `n > 32`: a fault. -/
def loadByte (n : BitVec 6) (s : State) : Host.Outcome State Fault Refusal :=
  match readTb s n.toNat with
  | some v => .next (enterPhase .byteTransfer { s with k := n, sh := v, i := 7 })
  | none => .fault .tbIndex

/-- The end of a bit: the next bit from step 0 of the phase, or on to step 6 after bit 0 (R144, R153). -/
def nextBit (s : State) : State :=
  if s.i = 0 then jump 6 s else jump 0 { s with i := s.i - 1 }

/-- The end of `TX9`: `ACKF` takes the sample; LOW goes on to `AK0`, HIGH raises `AckFail` (R145). -/
def takeAckSample (b : Bool) (s : State) : State :=
  if b then raiseAckFail { s with ackf := b } else enterPhase .ackOk { s with ackf := b }

/-- `AK2`: the dispatch after an acknowledged byte (R148, R149). -/
def dispatchAfterAck (s : State) : Host.Outcome State Fault Refusal :=
  match s.mode with
  | .w => if s.k.toNat + 1 < s.len.toNat then loadByte (s.k + 1) s else .next (enterPhase .stop s)
  | .r => if s.nreq = 0 then .next (enterPhase .stop s)
          else .next (enterPhase .byteReceive { s with j := 0, i := 7 })

/-- `RX6`: `RB[J] <- SH` (R155). There is no `RB[255]`: a fault. -/
def storeReceived (s : State) : Host.Outcome State Fault Refusal :=
  if s.j.toNat < s.cfg.rxCapacity then .next (advance (writeRb s.j.toNat s.sh s)) else .fault .rbIndex

/-- `RX17`: `J <- J + 1`, then the next byte or STOP (R155). -/
def nextReceived (s : State) : State :=
  if s.j + 1 < s.nreq then jump 0 { s with j := s.j + 1, i := 7 }
  else enterPhase .stop { s with j := s.j + 1 }

/-- What a labelled step does after its micro-operation, which sampled `b`: the registers it writes and the place it
goes on at (R141 to R158). -/
def conclude (l : Label) (b : Bool) (s : State) : Host.Outcome State Fault Refusal :=
  match l with
  | .st4 => loadByte 0 s
  | .tx5 => .next (nextBit s)
  | .tx9 => .next (takeAckSample b s)
  | .ak2 => dispatchAfterAck s
  | .af0 => .next (takeAckFail s)
  | .rx3 => .next (advance { s with sh := setBitAt s.sh s.i b })
  | .rx5 => .next (nextBit s)
  | .rx6 => storeReceived s
  | .rx17 => .next (nextReceived s)
  | .sp6 => .next (takeStopDone s)
  | .st0 | .st1 | .st2 | .st3
  | .tx0 | .tx1 | .tx2 | .tx3 | .tx4 | .tx6 | .tx7 | .tx8
  | .ak0 | .ak1
  | .rx0 | .rx1 | .rx2 | .rx4 | .rx7 | .rx8 | .rx9 | .rx10 | .rx11 | .rx12 | .rx13 | .rx14 | .rx15 | .rx16
  | .sp0 | .sp1 | .sp2 | .sp3 | .sp4 | .sp5 => .next (advance s)

/-- One labelled step. A held step changes nothing and stays where it is (R126, R141; log entry 9: DEDUCED, safe). -/
def runLabel (l : Label) (s : State) : Host.Outcome State Fault Refusal :=
  match (microOp l s).run s with
  | .done t b => conclude l b t
  | .held => .next s
  | .refused => .refused .readOfDrivenLine

/-- One step of the agent `ENGINE`: the step that `upc` names (R36, R141). -/
def engineStep (s : State) : Host.Outcome State Fault Refusal :=
  match labelAt s.ph s.u with
  | some l => runLabel l s
  | none => .refused .noSuchStep

end Machine
end Sys2Proof
end

