-- ==== Sys2Proof/Machine/Agents.lean ====
section
/-! DEFINITION. The three agents and whose turn it is (R12): `BUS` (R26), `rst` (R240, R242), and the block's own agent,
which is `HOST` in `IDLE` and `ENGINE` otherwise (R93). -/

namespace Sys2Proof
namespace Machine

/-- A step of `BUS`: it holds or lets go of the two lines as it likes (R24, R26). -/
def busStep (extScl extSda : Bool) (s : State) : State := { s with extScl := extScl, extSda := extSda }

/-- `BUS` does something the model has no input for: both pulls take free values (R26; log entry 3). -/
def freeBus (s : State) : State :=
  { s with extScl := Config.freeExtScl s.tick, extSda := Config.freeExtSda s.tick, tick := s.tick + 1 }

/-- The response port shows a word only for the step that puts it out (R92, R96, R260). -/
def clearRsp (s : State) : State := { s with rsp := none }

/-- The state in which the block's agent has its turn: some state if it moves next, none if `BUS` or `rst` does.
With nothing scheduled, `BUS` may have done anything before the turn (R12, R26). -/
def grant (s : State) : Option State :=
  match s.sched with
  | [] => some (freeBus (clearRsp s))
  | .block :: es => some (clearRsp { s with sched := es })
  | .bus _ _ :: _ => none
  | .rst :: _ => none

/-- A word is accepted: it is decoded, then run; a word that fails decoding is a command error (R91, R99, R180). -/
def acceptWord (w : Word) (s : State) : Host.Outcome State Fault Refusal :=
  match decode s.cfg.variant w with
  | .ok i => exec i s
  | .err e => .next (raiseCmdError e s)

/-- A step of `HOST` in `IDLE`: the next word is accepted; with none offered the block stays in `IDLE` (R91, R224,
R241). -/
def hostStep (s : State) : Host.Outcome State Fault Refusal :=
  match s.cmds with
  | [] => .next s
  | w :: ws => acceptWord w { s with cmds := ws }

/-- The turn of the block's agent: commands are accepted only in `IDLE` (R93). -/
def blockStep (s : State) : Host.Outcome State Fault Refusal :=
  if s.ph = .idle then hostStep s else engineStep s

/-- One step of the machine: the scheduled agent moves (R12). -/
def turn (s : State) : Host.Outcome State Fault Refusal :=
  match s.sched with
  | [] => blockStep (freeBus (clearRsp s))
  | .block :: es => blockStep (clearRsp { s with sched := es })
  | .bus a b :: es => .next (busStep a b (clearRsp { s with sched := es }))
  | .rst :: es => .next (resetBlock { s with sched := es })

/-- The word `w` of `nbits` bits (the bits above are 0) is the next that `HOST` offers, the block is in `IDLE`, and its
agent moves next. -/
def offerNext (nbits w : Nat) (s : State) : State :=
  { s with
    cmds := BitVec.ofNat 16 (w % 2 ^ nbits) :: s.cmds
    sched := .block :: s.sched
    ph := .idle }

end Machine
end Sys2Proof
end

