-- ==== Sys2Proof/Machine/Step.lean ====
section
/-! DEFINITION. The machine's step, and the placing of a command where the next step accepts it. -/

namespace Sys2Proof
namespace Machine

/-- One step of the machine (R12, R17). -/
def step : State → Host.Outcome State Fault Refusal := turn

/-- `s` with the command word `w` of `nbits` bits placed so that the very next step accepts and runs it: `HOST` offers
it first, the block is in `IDLE`, and its agent moves (log entry 4). -/
def State.withFetchWord (s : State) (nbits w : Nat) : State := offerNext nbits w s

end Machine
end Sys2Proof
end

