-- ==== Sys2Proof/Machine/Wire.lean ====
section
/-! DEFINITION. What stands outside the block: its ports (R90), the micro-operations of a run in order (R130, R160),
and what an observer of the two wires sees (R159). -/

namespace Sys2Proof
namespace Machine

/-! ### Ports, in the cycle of the step that is taken from `s` -/

/-- The port `rst`: the step is a cycle with the reset input high (R90, R240). -/
def rstIn (s : State) : Bool :=
  match s.sched with
  | .rst :: _ => true
  | _ => false

/-- The port `cmd_ready`: `PH = IDLE` (R90), but 0 while `rst` is 1 (R240). -/
def cmdReady (s : State) : Bool := s.ph = .idle && !rstIn s

/-- The port `busy`: `PH != IDLE` (R90). -/
def busy (s : State) : Bool := !(s.ph = .idle)

/-- The port `rsp`, where `rsp_valid` is 1: the word that the step puts out (R90, R92). -/
def rspOut (s : State) : Option Word :=
  match step s with
  | .next t => t.rsp
  | .fault _ => none
  | .refused _ => none

/-- The port `rsp_valid` (R90, R240). -/
def rspValid (s : State) : Bool := (rspOut s).isSome

/-- The ports `scl_low` and `sda_low`: the master drives the line low (R90, R129). -/
def padLow (s : State) (l : Line) : Bool := driveOf s l = .drivenLow

/-- The ports `scl_in` and `sda_in`: the level of the wire (R90). -/
def padIn (s : State) (l : Line) : Bool := level s l

/-! ### What a run does -/

/-- What `f` gives at each state of `n` steps from `s`, in order. -/
def along {α : Type} (f : State → List α) : Nat → State → List α
  | 0, _ => []
  | n + 1, s =>
    f s ++
      match step s with
      | .next t => along f n t
      | .fault _ => []
      | .refused _ => []

/-- The micro-operation of the engine step at `s` (R36, R141). -/
def currentOp (s : State) : Option MicroOp := (labelAt s.ph s.u).map fun l => microOp l s

/-- The micro-operation that the next step of the machine completes, if it is an engine step that completes one. -/
def completedOp (s : State) : Option MicroOp :=
  match grant s with
  | some g =>
    match currentOp g with
    | some o =>
      match o.run g with
      | .done _ _ => some o
      | .held => none
      | .refused => none
    | none => none
  | none => none

/-- The micro-operations that `n` steps from `s` complete, in order (R72, R130). -/
def opTrace (n : Nat) (s : State) : List MicroOp := along (fun s => (completedOp s).toList) n s

/-- The line events of `n` steps, in order, with the line and the new mode of each (R130). -/
def lineEvents (n : Nat) (s : State) : List (Line × Drive) := (opTrace n s).filterMap MicroOp.lineEvent

/-- A lower bound in nanoseconds on the real time of `n` steps: the delays they complete (R13, R263). -/
def minTime (n : Nat) (s : State) : Nat := ((opTrace n s).map (MicroOp.minTime s.cfg)).sum

/-- What `f` gives of the state in which the engine takes the step `l`, if the next step of the machine is that one. -/
def atLabel {α : Type} (l : Label) (f : State → α) (s : State) : List α :=
  match grant s with
  | some g => if labelAt g.ph g.u = some l then [f g] else []
  | none => []

/-- The levels of `SDA` that the steps `TX9` of `n` steps sample: false is ACK, true is NACK (R145). -/
def ackSamples (n : Nat) (s : State) : List Bool := along (atLabel .tx9 (level · .sda)) n s

/-- `EXT_SDA` at each step `TX9` of `n` steps: true where another participant holds `SDA` low (R24, R145). -/
def ackPulls (n : Nat) (s : State) : List Bool := along (atLabel .tx9 (·.extSda)) n s

/-- The levels of `SDA` that the steps `RX3` of `n` steps sample, in order (R153). -/
def rxSamples (n : Nat) (s : State) : List Bool := along (atLabel .rx3 (level · .sda)) n s

/-! ### The observer of the wires (R159) -/

/-- The levels of the two wires: true is HIGH (R27). -/
structure Levels where
  scl : Bool
  sda : Bool
deriving DecidableEq, Repr

/-- The levels in a state (R27). -/
def levels (s : State) : Levels := ⟨level s .scl, level s .sda⟩

/-- A start condition: `SDA` goes from HIGH to LOW while `SCL` is HIGH, before and after (R159; log entry 15:
DEDUCED). -/
def Levels.isStart (p q : Levels) : Bool := p.sda && !q.sda && p.scl && q.scl

/-- A stop condition: `SDA` goes from LOW to HIGH while `SCL` is HIGH, before and after (R159; log entry 15). -/
def Levels.isStop (p q : Levels) : Bool := !p.sda && q.sda && p.scl && q.scl

/-- `SCL` rises: a clock pulse begins (R159). -/
def Levels.isRise (p q : Levels) : Bool := !p.scl && q.scl

/-- `SCL` falls: a clock pulse that has begun is complete (R159). -/
def Levels.isFall (p q : Levels) : Bool := p.scl && !q.scl

/-- A start condition between two states (R159). -/
def startCondition (s t : State) : Bool := (levels s).isStart (levels t)

/-- A stop condition between two states (R159). -/
def stopCondition (s t : State) : Bool := (levels s).isStop (levels t)

/-- What the observer reports: a start condition, a stop condition, or a byte transfer, with its eight data bits as a
byte and its acknowledgment bit, false for ACK and true for NACK (R159). -/
inductive Seen
  | start
  | stop
  | byteTransfer (b : Byte) (nack : Bool)
deriving DecidableEq, Repr

/-- A byte from its bits, most significant first (R159). -/
def byteOfBits (bs : List Bool) : Byte := bs.foldl (fun v b => v <<< 1 ||| BitVec.zeroExtend 8 (BitVec.ofBool b)) 0

/-- The observer: the levels it saw last, whether a clock pulse has begun, the number of complete clock pulses, the bits
of the byte transfer under way, and what it has reported. -/
structure Observer where
  last    : Levels
  inPulse : Bool
  pulses  : Nat
  bits    : List Bool
  seen    : List Seen
deriving DecidableEq, Repr

/-- An observer that begins to look. -/
def Observer.begin (l : Levels) : Observer := ⟨l, false, 0, [], []⟩

/-- One more bit: the ninth completes a byte transfer. A bit counts from the rise of its pulse, so that the ninth pulse
of an aborted transaction, whose fall the block never makes, counts (R159; log entry 15). -/
def Observer.takeBit (b : Bool) (o : Observer) : Observer :=
  if o.bits.length = 8 then { o with bits := [], seen := o.seen ++ [.byteTransfer (byteOfBits o.bits) b] }
  else { o with bits := o.bits ++ [b] }

/-- The observer looks at the wires once more (R159). -/
def Observer.look (o : Observer) (q : Levels) : Observer :=
  if o.last.isStart q then { o with last := q, bits := [], seen := o.seen ++ [.start] }
  else if o.last.isStop q then { o with last := q, bits := [], seen := o.seen ++ [.stop] }
  else if o.last.isRise q then Observer.takeBit q.sda { o with last := q, inPulse := true }
  else if o.last.isFall q then
    { o with last := q, inPulse := false, pulses := if o.inPulse then o.pulses + 1 else o.pulses }
  else { o with last := q }

/-- The levels after `s` that one step passes through: what `BUS` makes of them before the block's agent moves, and what
the step leaves. -/
def stepLevels (s : State) : List Levels :=
  (match grant s with
    | some g => [levels g]
    | none => []) ++
  match step s with
  | .next t => [levels t]
  | .fault _ => []
  | .refused _ => []

/-- The levels of the wires along `n` steps after `s`. -/
def wire (n : Nat) (s : State) : List Levels := along stepLevels n s

/-- The observer after `n` steps from `s`, looking from `s` on (R159). -/
def observe (n : Nat) (s : State) : Observer := (wire n s).foldl Observer.look (Observer.begin (levels s))

end Machine
end Sys2Proof
end

