-- ==== Sys2Proof/Safety.lean ====
section
/-! DEFINITION. What counts as a safe state: the invariants of R43 and the drive modes of R160; and which registers of
a state can still matter (R32, R34, R36, R44). -/

namespace Sys2Proof
namespace Machine

/-- The drive mode that puts `SDA` at bit `b` (R123). -/
def driveOfBit (b : Bool) : Drive := if b then .released else .drivenLow

/-- The drive mode of `SDA` in the acknowledgment slot of a received byte: released for the last byte, driven low for
the others (R154, R160). -/
def ackDrive (s : State) : Drive := if lastByte s then .released else .drivenLow

/-- The drive modes of `SCL` and `SDA` before each labelled step; none where R160 allows either. -/
def drivesAt (l : Label) (s : State) : Drive × Option Drive :=
  match l with
  | .st0 => (.released, some .released)
  | .st1 => (.released, some .drivenLow)
  | .st2 => (.released, some .drivenLow)
  | .st3 => (.drivenLow, some .drivenLow)
  | .st4 => (.drivenLow, some .drivenLow)
  | .tx0 => (.drivenLow, none)
  | .tx1 => (.drivenLow, some (driveOfBit (bitAt s.sh s.i)))
  | .tx2 => (.drivenLow, some (driveOfBit (bitAt s.sh s.i)))
  | .tx3 => (.released, some (driveOfBit (bitAt s.sh s.i)))
  | .tx4 => (.released, some (driveOfBit (bitAt s.sh s.i)))
  | .tx5 => (.drivenLow, some (driveOfBit (bitAt s.sh s.i)))
  | .tx6 => (.drivenLow, none)
  | .tx7 => (.drivenLow, some .released)
  | .tx8 => (.released, some .released)
  | .tx9 => (.released, some .released)
  | .ak0 => (.released, some .released)
  | .ak1 => (.drivenLow, some .released)
  | .ak2 => (.drivenLow, some .released)
  | .af0 => (.released, some .released)
  | .rx0 => (.drivenLow, some .released)
  | .rx1 => (.drivenLow, some .released)
  | .rx2 => (.released, some .released)
  | .rx3 => (.released, some .released)
  | .rx4 => (.released, some .released)
  | .rx5 => (.released, some .released)
  | .rx6 => (.drivenLow, some .released)
  | .rx7 => (.drivenLow, some .released)
  | .rx8 => (.drivenLow, some .released)
  | .rx9 => (.drivenLow, some (ackDrive s))
  | .rx10 => (.drivenLow, some (ackDrive s))
  | .rx11 => (.released, some (ackDrive s))
  | .rx12 => (.released, some (ackDrive s))
  | .rx13 => (.released, some (ackDrive s))
  | .rx14 => (.drivenLow, some (ackDrive s))
  | .rx15 => (.drivenLow, some (ackDrive s))
  | .rx16 => (.drivenLow, some .released)
  | .rx17 => (.drivenLow, some .released)
  | .sp0 => (.drivenLow, some .released)
  | .sp1 => (.drivenLow, some .drivenLow)
  | .sp2 => (.drivenLow, some .drivenLow)
  | .sp3 => (.released, some .drivenLow)
  | .sp4 => (.released, some .drivenLow)
  | .sp5 => (.released, some .released)
  | .sp6 => (.released, some .released)

/-- The drive modes are those of the step that `upc` names, and both released where it names none (R43 item 2,
R160). -/
def drivesOk (s : State) : Bool :=
  match labelAt s.ph s.u with
  | some l => s.drvScl = (drivesAt l s).1 && (drivesAt l s).2.all (s.drvSda = ·)
  | none => s.drvScl = .released && s.drvSda = .released

/-- A byte of `TB` is being transmitted or has just been: `BYTE_TRANSFER`, `ACK_OK`, `ACK_FAIL` (R35). -/
def transmitting (p : Phase) : Bool := p = .byteTransfer || p = .ackOk || p = .ackFail

/-- The invariants of R43, with what they rest on. Item 5 of R43 is the shape of `step`; the rest are here. -/
structure Inv (s : State) : Prop where
  /-- R43 item 1. -/
  lenLe : s.len.toNat ≤ s.cfg.capacity
  /-- `upc` names a labelled step, but in `IDLE` (R36). -/
  position : s.ph = .idle ∨ (labelAt s.ph s.u).isSome
  /-- R43 items 2, 3 and 4; R160. -/
  drives : drivesOk s
  /-- A transaction has an address byte (R188, R191). -/
  hasAddress : s.ph ≠ .idle → 1 ≤ s.len.toNat
  /-- R43 item 6. -/
  kBound : transmitting s.ph → s.k < s.len
  /-- A read transmits the address byte alone (R149). -/
  kRead : transmitting s.ph → s.mode = .r → s.k = 0
  /-- `SH` is a copy of `TB[K]` (R37). -/
  shCopy : s.ph = .byteTransfer → readTb s s.k.toNat = some s.sh
  /-- R43 item 7, second half. -/
  jBound : s.ph = .byteReceive → s.mode = .r ∧ s.j < s.nreq
  /-- The stored direction bit is 1 exactly while a read runs (R189). -/
  direction : 1 ≤ s.len.toNat → bitAt (Memory.read s.tb 0) 0 = (!(s.ph = .idle) && s.mode = .r)
  /-- The write-only variant never reads (R10, R38). -/
  writeOnly : s.cfg.variant = .wo → s.mode = .w ∧ s.rxcnt = 0
  /-- Both byte spaces are in canonical form and within their sizes (R28, R33). -/
  tbWf : Memory.wf s.cfg.capacity s.tb
  rbWf : Memory.wf s.cfg.rxCapacity s.rb

/-- `RB[n]` can still be returned by a later `RDRX`: the bytes of the last read, or of the running one (R34, R44). -/
def rbLive (s : State) (n : Nat) : Prop :=
  match s.ph with
  | .byteReceive => if s.u ≤ 6 then n < s.j.toNat else n < s.j.toNat + 1
  | .idle => n < s.rxcnt.toNat
  | .stop => match s.mode with
    | .r => n < s.nreq.toNat
    | .w => n < s.rxcnt.toNat
  | .start | .byteTransfer | .ackOk | .ackFail => match s.mode with
    | .r => False
    | .w => n < s.rxcnt.toNat

/-- Two states that differ only in registers whose value cannot matter any more: `TB` at and above `LEN` (R32), `RB`
above what can be returned (R34), `ACKF` (written before it is read), and the sequencer registers that the next
transaction writes before it reads them (R36, R44). -/
structure SameLive (s t : State) : Prop where
  drvScl : s.drvScl = t.drvScl
  drvSda : s.drvSda = t.drvSda
  len : s.len = t.len
  rxcnt : s.rxcnt = t.rxcnt
  ph : s.ph = t.ph
  lastok : s.lastok = t.lastok
  extScl : s.extScl = t.extScl
  extSda : s.extSda = t.extSda
  cmds : s.cmds = t.cmds
  rsp : s.rsp = t.rsp
  cfg : s.cfg = t.cfg
  sched : s.sched = t.sched
  tick : s.tick = t.tick
  tb : ∀ n, n < s.len.toNat → Memory.read s.tb n = Memory.read t.tb n
  rb : ∀ n, rbLive s n → Memory.read s.rb n = Memory.read t.rb n
  running : s.ph ≠ .idle → s.u = t.u ∧ s.mode = t.mode ∧ (s.mode = .r → s.nreq = t.nreq)
  loaded : s.ph ≠ .idle → s.ph ≠ .start → s.k = t.k ∧ s.i = t.i ∧ s.sh = t.sh
  receiving : s.ph = .byteReceive → s.j = t.j

/-! ### Runs, and the lists of micro-operations that the routines stand for -/

/-- `n` steps of the machine, stopping at the first fault or refusal. -/
def runSteps : Nat → State → Host.Outcome State Fault Refusal
  | 0, s => .next s
  | n + 1, s =>
    match step s with
    | .next t => runSteps n t
    | .fault f => .fault f
    | .refused r => .refused r

/-- The transaction that runs at `s` ends with the `n`-th step, in `t`: the first return to `IDLE`. -/
structure TransactionEnd (n : Nat) (s t : State) : Prop where
  ran : runSteps n s = .next t
  idle : t.ph = .idle
  busy : ∀ m u, m < n → runSteps m s = .next u → u.ph ≠ .idle

/-- The engine is at one of the two waits for the clock (R156). -/
def waiting (s : State) : Bool := labelAt s.ph s.u = some .rx2 || labelAt s.ph s.u = some .rx11

/-- What R159 asks of `BUS` at any moment of a transaction: it does not hold `SCL` low while the master has it released,
outside the two waits; nor `SDA` at `ST0` and `SP4`, where the conditions of R143 and R157 are needed (log entry 15). -/
def politeAt (s : State) : Bool :=
  (s.drvScl = .drivenLow || waiting s || !s.extScl) &&
    !((labelAt s.ph s.u = some .st0 || labelAt s.ph s.u = some .sp4) && s.extSda)

/-- What R159 asks of a step of `BUS` from `s` to `t`: it changes `EXT_SDA` only while `SCL` is LOW, before and after;
and it begins to hold `SCL` only while the master drives it low (log entry 15). -/
def politeMove (s t : State) : Bool :=
  (s.extSda = t.extSda || (!level s .scl && !level t .scl)) && (s.drvScl = .drivenLow || !t.extScl || s.extScl)

/-- The proviso of R159 for one step of the machine. -/
def politeStep (s : State) : Bool :=
  politeAt s &&
    match grant s with
    | some g => politeMove s g && politeAt g
    | none =>
      match step s with
      | .next t => politeMove s t && politeAt t
      | .fault _ => true
      | .refused _ => true

/-- The proviso of R159 along `n` steps (log entry 15). -/
def politeBus (n : Nat) (s : State) : Bool := (along (fun s => [politeStep s]) n s).all id

/-- A list of commands, each run when the one before has answered (R106). -/
def execAll : List Instr → State → Host.Outcome State Fault Refusal
  | [], s => .next s
  | i :: is, s =>
    match exec i s with
    | .next t => execAll is t
    | .fault f => .fault f
    | .refused r => .refused r

/-- The bit indices in the order of the wire, most significant first (R63). -/
def bitOrder : List (BitVec 3) := [7, 6, 5, 4, 3, 2, 1, 0]

/-- The micro-operations of `ST0` to `ST4` (R142). -/
def startOps : List MicroOp := [.dl .sda, .dly .startSetup, .dl .scl, .dly .startHold, .book]

/-- The micro-operations of `TX0` to `TX5` for bit `n` of `b` (R144). -/
def txBitOps (b : Byte) (n : BitVec 3) : List MicroOp :=
  [.setSda (bitAt b n), .dly .txSetup, .rl .scl, .dly .txHigh, .dl .scl, .dly .txLow]

/-- The micro-operations of the transmission of `b`, up to and with the sample of its acknowledgment (R144, R145). -/
def txByteOps (b : Byte) : List MicroOp :=
  bitOrder.flatMap (txBitOps b) ++ [.rl .sda, .rl .scl, .dly .txAckSample, .sample .sda]

/-- The micro-operations of `AK0` to `AK2` (R147). -/
def ackOkOps : List MicroOp := [.dl .scl, .dly .txAckSettle, .book]

/-- The micro-operations of `AF0` (R152). -/
def ackFailOps : List MicroOp := [.book]

/-- The micro-operations of `RX0` to `RX5` (R153). -/
def rxBitOps : List MicroOp := [.dly .rxLow, .rl .scl, .waitH .scl, .sample .sda, .dly .rxHigh, .dl .scl]

/-- The micro-operations of `RX6` to `RX17`: for the last byte `SDA` stays released (R154). -/
def rxAckOps (last : Bool) : List MicroOp :=
  [.book, .dly .rxAckPre, if last then .book else .dl .sda, .dly .rxAckSetup, .rl .scl, .waitH .scl, .dly .rxAckHigh,
   .dl .scl, .dly .rxAckLow, .rl .sda, .dly .rxAckFinal, .book]

/-- The micro-operations of the reception of one byte (R153, R154). -/
def rxByteOps (last : Bool) : List MicroOp := bitOrder.flatMap (fun _ => rxBitOps) ++ rxAckOps last

/-- The micro-operations of `SP0` to `SP6` (R157). -/
def stopOps : List MicroOp :=
  [.dl .sda, .dly .stopSetup, .rl .scl, .dly .stopHigh, .rl .sda, .dly .stopIdle, .book]

/-- The first `n` bytes of the Transfer Buffer, in order (R61). -/
def tbBytes (s : State) (n : Nat) : List Byte := (List.range n).map (Memory.read s.tb)

/-- The micro-operations of the reception of `n` bytes: ACK after all but the last, NACK after the last (R154). -/
def rxOps (n : Nat) : List MicroOp := (List.range n).flatMap fun k => rxByteOps (k + 1 = n)

/-- A target that puts the byte `d` on `SDA`, most significant bit first, each bit before the clock is released, lets
`SCL` rise at once, and leaves the engine the steps of one received byte. -/
def presentByte (d : Byte) : List Event :=
  bitOrder.flatMap (fun n => .bus false (!bitAt d n) :: List.replicate 6 .block) ++ List.replicate 12 .block

end Machine
end Sys2Proof
end

