-- ==== Sys2Proof/Certificates/Slice0/Obligations.lean ====
section
/-! DEFINITION. The statements for the provers: what the spec's rules say of this model. -/

open Sys2Proof Sys2Proof.Machine

/-! ### Encoding -/

/-- R98, and the words of 95_test_vectors.md section 2.1: words written out from the opcode map decode to the commands
they stand for. -/
def Obligations.OpcodeMapWordsDecode : Prop :=
  decode .rw 0b0000000100000000#16 = .ok .init ∧
  decode .rw 0b0000001001010010#16 = .ok (.setaddr 0x52#7) ∧
  decode .rw 0b0000001101000000#16 = .ok (.append 0x40#8) ∧
  decode .rw 0b0000010000000000#16 = .ok .execw ∧
  decode .rw 0b0000010100000110#16 = .ok (.execr 0x06#8) ∧
  decode .rw 0b0000011000000101#16 = .ok (.rdrx 0x05#8) ∧
  decode .rw 0b0000011100000000#16 = .ok .rdstat ∧
  decode .wo 0b0000010100000110#16 = .err .illegalOpcode

/-- R98, R99: decoding the word of a command of the variant gives the command back, for every operand. -/
def Obligations.DecodeOfEncodeIsTheCommand : Prop :=
  ∀ (v : Variant) (i : Instr), i.wellFormed v = true → decode v (encode i) = .ok i

/-- R98, R103: a word that decodes to a command is the word of that command and of no other, and the command is one of
the variant's. -/
def Obligations.EncodeOfDecodeIsTheWord : Prop :=
  ∀ (v : Variant) (w : Word) (i : Instr), decode v w = .ok i →
    encode i = w ∧ i.wellFormed v = true ∧ ∀ j, encode j = w → j = i

/-- R98, R99: a word decodes to a command exactly when a row of the opcode map accepts it, the row bears the command's
name, and no word is accepted by two rows. -/
def Obligations.DecoderFollowsTheOpcodeMap : Prop :=
  (∀ (v : Variant) (w : Word), (∃ i, decode v w = .ok i) ↔ ∃ r ∈ opcodeTable, r.accepts v w = true) ∧
  (∀ (v : Variant) (w : Word) (i : Instr), decode v w = .ok i →
    ∃ r ∈ opcodeTable, r.accepts v w = true ∧ r.name = i.mnemonic) ∧
  (∀ (w : Word), ∀ r ∈ opcodeTable, ∀ q ∈ opcodeTable, w &&& r.mask = r.bits → w &&& q.mask = q.bits → r = q)

/-- R103: every word that the opcode map does not match is illegal in one of two ways; when such a word is accepted no
state changes, no line event happens and the response is `respond(1, 0, code)`; no word executes as another command;
`0x0000` and `0xFFFF` are illegal opcodes. -/
def Obligations.IllegalAndReservedWords : Prop :=
  (∀ (v : Variant) (w : Word),
    (decode v w = .err .illegalOpcode ↔
      opField w = 0x00 ∨ 0x08 ≤ opField w ∨ (v = .wo ∧ (opField w = 0x05 ∨ opField w = 0x06))) ∧
    (decode v w = .err .reservedOperand ↔
      ((opField w = 0x01 ∨ opField w = 0x04 ∨ opField w = 0x07) ∧ immField w ≠ 0) ∨
      (opField w = 0x02 ∧ (immField w).getLsbD 7 = true)) ∧
    ((∀ r ∈ opcodeTable, r.accepts v w = false) ↔
      decode v w = .err .illegalOpcode ∨ decode v w = .err .reservedOperand) ∧
    (∀ i, decode v w = .ok i → encode i = w)) ∧
  (∀ (s g : State) (w : Word) (ws : List Word), grant s = some g → s.ph = .idle → s.cmds = w :: ws →
    (decode s.cfg.variant w = .err .illegalOpcode →
      step s = .next { g with cmds := ws, rsp := some 0x8001 } ∧ completedOp s = none) ∧
    (decode s.cfg.variant w = .err .reservedOperand →
      step s = .next { g with cmds := ws, rsp := some 0x8002 } ∧ completedOp s = none)) ∧
  (∀ v, decode v 0x0000 = .err .illegalOpcode ∧ decode v 0xFFFF = .err .illegalOpcode)

/-- R104: the write-only variant makes the opcodes `0x05` and `0x06` illegal, and every other word decodes the same in
both variants. -/
def Obligations.VariantChangesTwoOpcodesOnly : Prop :=
  ∀ w : Word,
    (opField w = 0x05 ∨ opField w = 0x06 →
      decode .wo w = .err .illegalOpcode ∧ ∃ i, decode .rw w = .ok i) ∧
    (opField w ≠ 0x05 → opField w ≠ 0x06 → decode .wo w = decode .rw w)

/-- R96: the fields of a response word. -/
def Obligations.ResponseWordFields : Prop :=
  ∀ (e r : Bool) (v : Byte),
    (responseWord e r v).getLsbD 15 = e ∧ (responseWord e r v).extractLsb' 9 6 = 0 ∧
    (responseWord e r v).getLsbD 8 = r ∧ (responseWord e r v).extractLsb' 0 8 = v

/-! ### One step -/

/-- R91, R93, R99: when `HOST` has its turn in `IDLE` and the next word decodes, the step is the command, run in the
state that the turn finds less that word; what the turn finds is the state before but for the response port, the pulls
of `BUS` and the schedule. -/
def Obligations.StepRunsTheDecodedCommand : Prop :=
  ∀ (s g : State) (w : Word) (ws : List Word) (i : Instr),
    grant s = some g → s.ph = .idle → s.cmds = w :: ws → decode s.cfg.variant w = .ok i →
      step s = exec i { g with cmds := ws } ∧
      g = { s with rsp := none, sched := s.sched.tail, extScl := g.extScl, extSda := g.extSda, tick := g.tick }

/-- The word that `withFetchWord` places is the one that the next step runs (the model's convention, log entry 4). -/
def Obligations.FetchWordIsRunNext : Prop :=
  ∀ (s : State) (i : Instr), i.wellFormed s.cfg.variant = true →
    step (s.withFetchWord 16 (encode i).toNat) = exec i { s with ph := .idle, rsp := none }

/-- R93, R141: while `PH` is not `IDLE` a turn of the block's agent is the labelled step that `upc` names, the words
that `HOST` offers stay where they are, and no command has a step. -/
def Obligations.EngineRunsWhileBusy : Prop :=
  (∀ (s g : State) (l : Label), grant s = some g → s.ph ≠ .idle → labelAt s.ph s.u = some l →
    step s = runLabel l g ∧ ∀ t, step s = .next t → t.cmds = s.cmds) ∧
  (∀ (s : State) (i : Instr), s.ph ≠ .idle → exec i s = .refused .hostBusy)

/-- R92: at a turn of the block's agent that accepts a word or runs an engine step, a response comes out exactly when
the block is in `IDLE` after it: one response for each command, in its last step. -/
def Obligations.ResponseEndsTheCommand : Prop :=
  ∀ (s g t : State), grant s = some g → (s.ph ≠ .idle ∨ s.cmds ≠ []) → step s = .next t →
    (t.rsp.isSome = true ↔ t.ph = .idle)

/-- R240, R242: a cycle with `rst` high ends whatever was running: the registers of R44 take their reset values, no
response comes out and no word is accepted, and `cmd_ready` and `rsp_valid` are 0 in that cycle; when `rst` is 0 again
the block is ready. What is outside the block is not reset. -/
def Obligations.ResetCycleEndsEverything : Prop :=
  ∀ (s : State) (es : List Event), s.sched = .rst :: es → ∃ t, step s = .next t ∧
    t.drvScl = .released ∧ t.drvSda = .released ∧ t.len = 0 ∧ t.rxcnt = 0 ∧ t.ph = .idle ∧ t.lastok = false ∧
    t.u = 0 ∧ t.k = 0 ∧ t.i = 0 ∧ t.j = 0 ∧ t.mode = .w ∧ t.nreq = 0 ∧ t.rsp = none ∧
    t.cmds = s.cmds ∧ t.cfg = s.cfg ∧ t.extScl = s.extScl ∧ t.extSda = s.extSda ∧ t.sched = es ∧ t.tick = s.tick ∧
    cmdReady s = false ∧ rspValid s = false ∧ (cmdReady t = true ↔ ∀ fs, es ≠ .rst :: fs)

/-- R44: the values that the spec gives for reset, and the `STATUS` that follows from them in both variants. -/
def Obligations.ResetValues : Prop :=
  State.reset.drvScl = .released ∧ State.reset.drvSda = .released ∧ State.reset.len = 0 ∧ State.reset.rxcnt = 0 ∧
  State.reset.ph = .idle ∧ State.reset.u = 0 ∧ State.reset.k = 0 ∧ State.reset.i = 0 ∧ State.reset.j = 0 ∧
  State.reset.mode = .w ∧ State.reset.nreq = 0 ∧ State.reset.lastok = false ∧
  status { State.reset with cfg := { variant := .rw } } = 0b00000100#8 ∧
  status { State.reset with cfg := { variant := .wo } } = 0b00000000#8

/-! ### Commands -/

/-- R181: `INIT` releases both lines, answers `(0, 1, 0x00)` and touches nothing else; in a state of the invariant the
lines were released already. A word of its opcode with another operand than 0 is the error `0x02`. -/
def Obligations.InitReleasesBothLines : Prop :=
  (∀ s : State, s.ph = .idle →
    exec .init s = .next { s with drvScl := .released, drvSda := .released, rsp := some 0x0100 }) ∧
  (∀ s : State, Inv s → s.ph = .idle → exec .init s = .next { s with rsp := some 0x0100 }) ∧
  (∀ (v : Variant) (w : Word), opField w = 0x01 → immField w ≠ 0 → decode v w = .err .reservedOperand)

/-- R182, R183: `SETADDR a7` leaves the address byte alone in the buffer, direction write, answers with it, and changes
no other byte and no other register; afterwards an address is set. Its words are those with operand bit 7 clear; with
the bit set they are the error `0x02`. -/
def Obligations.SetaddrStoresTheAddressByte : Prop :=
  (∀ (s : State) (a7 : BitVec 7), s.ph = .idle → ∃ t, exec (.setaddr a7) s = .next t ∧
    t = { s with tb := t.tb, len := 1, rsp := some (responseWord false true (a7 ++ 0#1)) } ∧
    readTb t 0 = some (a7 ++ 0#1) ∧ (∀ n, n ≠ 0 → readTb t n = readTb s n) ∧ addressValid t = true) ∧
  (∀ (v : Variant) (w : Word), opField w = 0x02 →
    ((immField w).getLsbD 7 = true → decode v w = .err .reservedOperand) ∧
    ((immField w).getLsbD 7 = false → decode v w = .ok (.setaddr (w.extractLsb' 0 7))))

/-- R184, R185, R186: `APPEND b8` is the error `0x03` with no address set; stores at `TB[LEN]` below the capacity; drops
the byte at it, with the answer of a stored one. Nothing else changes. -/
def Obligations.AppendStoresOrDropsOrErrs : Prop :=
  ∀ (s : State) (b8 : Byte), s.ph = .idle →
    (s.len = 0 → exec (.append b8) s = .next { s with rsp := some 0x8003 }) ∧
    (s.len ≠ 0 → s.len.toNat < 33 → ∃ t, exec (.append b8) s = .next t ∧
      t = { s with tb := t.tb, len := s.len + 1, rsp := some 0x0100 } ∧ t.len.toNat = s.len.toNat + 1 ∧
      readTb t s.len.toNat = some b8 ∧ ∀ n, n ≠ s.len.toNat → readTb t n = readTb s n) ∧
    (33 ≤ s.len.toNat → exec (.append b8) s = .next { s with rsp := some 0x0100 })

/-- R185: with an empty buffer `APPEND` is the command error `0x03` and stores nothing, and so for `EXECW` and
`EXECR`. -/
def Obligations.EmptyBufferIsNoAddress : Prop :=
  ∀ s : State, s.ph = .idle → s.len = 0 →
    (∀ b8, exec (.append b8) s = .next { s with rsp := some 0x8003 }) ∧
    exec .execw s = .next { s with rsp := some 0x8003 } ∧
    (s.cfg.variant = .rw → ∀ n8, exec (.execr n8) s = .next { s with rsp := some 0x8003 })

/-- R107, R187: `APPENDS` is its expansion: with `LEN = L >= 1` the bytes go to `TB[L]` onward as far as the capacity
and the rest are dropped; with `LEN = 0` each `APPEND` of it is a command error. -/
def Obligations.AppendsStoresUpToTheCapacity : Prop :=
  ∀ (s : State) (bs : List Byte), s.ph = .idle →
    (1 ≤ s.len.toNat → s.len.toNat ≤ 33 → ∃ t, execAll (expandAppends bs) s = .next t ∧
      t = { s with tb := t.tb, len := t.len, rsp := t.rsp } ∧
      t.len.toNat = min (s.len.toNat + bs.length) 33 ∧
      (∀ n, n < 33 → readTb t n =
        if s.len.toNat ≤ n ∧ n < s.len.toNat + bs.length then bs[n - s.len.toNat]? else readTb s n) ∧
      (bs ≠ [] → t.rsp = some 0x0100)) ∧
    (s.len = 0 → bs ≠ [] → execAll (expandAppends bs) s = .next { s with rsp := some 0x8003 }) ∧
    execAll (expandAppends []) s = .next s

/-- R188, R189: `EXECW` with an address set starts a write transaction: `MODE`, `PH` and `U` are set, the direction bit
is forced to write in the read/write variant, and nothing else changes. With none set it is the error `0x03`. -/
def Obligations.ExecwStartsAWrite : Prop :=
  ∀ s : State, s.ph = .idle →
    (s.len = 0 → exec .execw s = .next { s with rsp := some 0x8003 }) ∧
    (s.len ≠ 0 → ∃ t, exec .execw s = .next t ∧
      t = { s with tb := t.tb, mode := .w, ph := .start, u := 0 } ∧
      (s.cfg.variant = .rw → readTb t 0 = some (Memory.read s.tb 0 &&& 0xFE)) ∧
      (s.cfg.variant = .wo → t.tb = s.tb) ∧ ∀ n, n ≠ 0 → readTb t n = readTb s n)

/-- R191: `EXECR n8` with an address set starts a read transaction: the direction bit is set to read, `MODE`, `NREQ`,
`PH` and `U` are set, and nothing else changes. With none set it is the error `0x03`, and in the write-only variant
the error `0x01`. -/
def Obligations.ExecrStartsARead : Prop :=
  ∀ (s : State) (n8 : BitVec 8), s.ph = .idle →
    (s.cfg.variant = .wo → exec (.execr n8) s = .next { s with rsp := some 0x8001 }) ∧
    (s.cfg.variant = .rw → s.len = 0 → exec (.execr n8) s = .next { s with rsp := some 0x8003 }) ∧
    (s.cfg.variant = .rw → s.len ≠ 0 → ∃ t, exec (.execr n8) s = .next t ∧
      t = { s with tb := t.tb, mode := .r, nreq := n8, ph := .start, u := 0 } ∧
      readTb t 0 = some (Memory.read s.tb 0 ||| 0x01) ∧ ∀ n, n ≠ 0 → readTb t n = readTb s n)

/-- R194: `RDRX n8` answers with `RB[n8]` below `RXCNT` and is the error `0x04` from it on; it changes no state. In the
write-only variant it is the error `0x01`. -/
def Obligations.RdrxAnswersTheReceivedByte : Prop :=
  ∀ (s : State) (n8 : BitVec 8), s.ph = .idle →
    (s.cfg.variant = .wo → exec (.rdrx n8) s = .next { s with rsp := some 0x8001 }) ∧
    (s.cfg.variant = .rw → s.rxcnt.toNat ≤ n8.toNat → exec (.rdrx n8) s = .next { s with rsp := some 0x8004 }) ∧
    (s.cfg.variant = .rw → n8.toNat < s.rxcnt.toNat → ∃ v, readRb s n8.toNat = some v ∧
      exec (.rdrx n8) s = .next { s with rsp := some (responseWord false true v) })

/-- R42, R195: `RDSTAT` answers with the status view, whose bits are `AV`, `LASTOK`, `RWV` and zeros; it changes no
state. A word of its opcode with another operand than 0 is the error `0x02`. -/
def Obligations.RdstatAnswersTheStatusView : Prop :=
  (∀ s : State, s.ph = .idle → ∃ v : Byte,
    exec .rdstat s = .next { s with rsp := some (responseWord false true v) } ∧
    (v.getLsbD 0 = true ↔ 1 ≤ s.len.toNat) ∧ v.getLsbD 1 = s.lastok ∧
    (v.getLsbD 2 = true ↔ s.cfg.variant = .rw) ∧ v.extractLsb' 3 5 = 0) ∧
  (∀ (v : Variant) (w : Word), opField w = 0x07 → immField w ≠ 0 → decode v w = .err .reservedOperand)

/-- R23: no command but `INIT` changes a drive mode, and no command changes the receive buffer, `RXCNT` or `LASTOK`. -/
def Obligations.CommandsKeepLinesAndResults : Prop :=
  ∀ (i : Instr) (s t : State), exec i s = .next t →
    (i ≠ .init → t.drvScl = s.drvScl ∧ t.drvSda = s.drvSda) ∧
    (∀ n, readRb t n = readRb s n) ∧ t.rxcnt = s.rxcnt ∧ t.lastok = s.lastok ∧ t.ackf = s.ackf

/-- R189: in a state of the invariant the stored direction bit is 0 whenever an `EXECW` can be accepted, in both
variants; the read/write variant forces it all the same, the write-only variant forces nothing. -/
def Obligations.DirectionBitIsWriteAtEveryExecw : Prop :=
  ∀ s : State, Inv s → s.ph = .idle → s.len ≠ 0 →
    bitAt (Memory.read s.tb 0) 0 = false ∧ ∃ t, exec .execw s = .next t ∧
      (s.cfg.variant = .rw → readTb t 0 = some (Memory.read s.tb 0 &&& 0xFE)) ∧
      (s.cfg.variant = .wo → t.tb = s.tb) ∧
      bitAt (Memory.read t.tb 0) 0 = false

/-! ### Command errors -/

/-- R220: a command error saves nothing and changes nothing: whatever the word, if the response has `E = 1` then only
the word offered is gone, no micro-operation ran, and the response is one of the four of R215. -/
def Obligations.CommandErrorChangesNothing : Prop :=
  ∀ (s g t : State) (w r : Word) (ws : List Word), grant s = some g → s.ph = .idle → s.cmds = w :: ws →
    step s = .next t → t.rsp = some r → r.getLsbD 15 = true →
      t = { g with cmds := ws, rsp := some r } ∧ completedOp s = none ∧ r ∈ [0x8001, 0x8002, 0x8003, 0x8004]

/-- R215, R218: each error code has its one cause, checked in the order of R218, and there is no other
code. -/
def Obligations.EachErrorCodeHasItsCause : Prop :=
  ∀ (s g : State) (w : Word) (ws : List Word), grant s = some g → s.ph = .idle → s.cmds = w :: ws →
    ∃ t, step s = .next t ∧
      (t.rsp = some 0x8001 ↔ decode s.cfg.variant w = .err .illegalOpcode) ∧
      (t.rsp = some 0x8002 ↔ decode s.cfg.variant w = .err .reservedOperand) ∧
      (t.rsp = some 0x8003 ↔ s.len = 0 ∧
        (decode s.cfg.variant w = .ok .execw ∨ (∃ b, decode s.cfg.variant w = .ok (.append b)) ∨
          ∃ n, decode s.cfg.variant w = .ok (.execr n))) ∧
      (t.rsp = some 0x8004 ↔ ∃ n : BitVec 8, decode s.cfg.variant w = .ok (.rdrx n) ∧ s.rxcnt.toNat ≤ n.toNat) ∧
      (∀ r, t.rsp = some r → r.getLsbD 15 = true → r ∈ [0x8001, 0x8002, 0x8003, 0x8004])

/-! ### The Line Driver -/

/-- R27: the level of a line is LOW if the master drives it or another participant holds it, and HIGH otherwise. -/
def Obligations.LevelIsTheWiredAnd : Prop :=
  ∀ (s : State) (l : Line),
    (driveOf s l = .drivenLow ∨ extOf s l = true → level s l = false) ∧
    (¬ (driveOf s l = .drivenLow ∨ extOf s l = true) → level s l = true)

/-- R121, R122, R123: `DL`, `RL` and `SETSDA` always complete; each sets the drive mode of its one line and changes
nothing else; after `DL` the level is LOW whatever the others do, after `RL` it is HIGH only if no other participant
holds the line; `SETSDA` of 0 is `DL(SDA)` and of 1 is `RL(SDA)`. -/
def Obligations.DriveMicroOperations : Prop :=
  ∀ (s : State) (l : Line),
    (∃ t, (MicroOp.dl l).run s = .done t false ∧ driveOf t l = .drivenLow ∧ level t l = false ∧
      (∀ m, m ≠ l → driveOf t m = driveOf s m) ∧ t = { s with drvScl := t.drvScl, drvSda := t.drvSda } ∧
      (driveOf s l = .drivenLow → t = s)) ∧
    (∃ t, (MicroOp.rl l).run s = .done t false ∧ driveOf t l = .released ∧ level t l = !extOf s l ∧
      (∀ m, m ≠ l → driveOf t m = driveOf s m) ∧ t = { s with drvScl := t.drvScl, drvSda := t.drvSda } ∧
      (driveOf s l = .released → t = s)) ∧
    (MicroOp.setSda false).run s = (MicroOp.dl .sda).run s ∧ (MicroOp.setSda true).run s = (MicroOp.rl .sda).run s

/-- R124, R126: `SAMPLE` and `WAITH` of a released line change no state; the sample is the level; the wait completes
when the level is HIGH and is held while it is LOW. -/
def Obligations.SampleAndWaitOfAReleasedLine : Prop :=
  ∀ (s : State) (l : Line), driveOf s l = .released →
    (MicroOp.sample l).run s = .done s (!extOf s l) ∧
    (extOf s l = false → (MicroOp.waitH l).run s = .done s false) ∧
    (extOf s l = true → (MicroOp.waitH l).run s = .held)

/-- R125: a read of a driven line is refused, and the engine never executes one: in a state of the invariant the line
of a `SAMPLE` or a `WAITH` is released. -/
def Obligations.ReadsOnlyOfReleasedLines : Prop :=
  (∀ (s : State) (l : Line), driveOf s l ≠ .released →
    (MicroOp.sample l).run s = .refused ∧ (MicroOp.waitH l).run s = .refused) ∧
  (∀ (s : State) (l : Line), Inv s → (currentOp s = some (.sample l) ∨ currentOp s = some (.waitH l)) →
    driveOf s l = .released)

/-- R130: the completed micro-operations that are line events are the `DL`, the `RL` and the `SETSDA`, and no other
micro-operation changes a drive mode. -/
def Obligations.LineEventsAreTheDriveSteps : Prop :=
  ∀ (o : MicroOp) (s t : State) (b : Bool), o.run s = .done t b →
    (∀ l d, o.lineEvent = some (l, d) → driveOf t l = d) ∧ (o.lineEvent = none → t = s) ∧
    (o.lineEvent ≠ none ↔ ∃ l, o = .dl l ∨ o = .rl l ∨ o = .setSda true ∨ o = .setSda false)

/-! ### The routines -/

/-- R142: from `ST0`, whatever `BUS` does, five steps are `DL(SDA)`, a delay, `DL(SCL)`, a delay and the load of
`TB[0]`; both lines are then driven low and the bit loop begins at bit 7 of byte 0. -/
def Obligations.StartRoutine : Prop :=
  ∀ s : State, s.ph = .start → s.u = 0 → s.sched = [] → ∃ t, runSteps 5 s = .next t ∧
    opTrace 5 s = [.dl .sda, .dly .startSetup, .dl .scl, .dly .startHold, .book] ∧
    lineEvents 5 s = [(.sda, .drivenLow), (.scl, .drivenLow)] ∧
    t = { s with
      drvScl := .drivenLow, drvSda := .drivenLow, ph := .byteTransfer, u := 0, k := 0, i := 7,
      sh := Memory.read s.tb 0, rsp := none, extScl := t.extScl, extSda := t.extSda, tick := t.tick }

/-- R144: from `TX0` at bit 7, whatever `BUS` does, the loop runs exactly eight times, bit 7 first, each time
`SETSDA(SH[I])`, a delay, `RL(SCL)`, a delay, `DL(SCL)`, a delay; then the engine is at `TX6`. -/
def Obligations.TransmitBitLoop : Prop :=
  ∀ s : State, s.ph = .byteTransfer → s.u = 0 → s.i = 7 → s.sched = [] → ∃ t, runSteps 48 s = .next t ∧
    opTrace 48 s = [7#3, 6#3, 5#3, 4#3, 3#3, 2#3, 1#3, 0#3].flatMap (fun n =>
      [.setSda (bitAt s.sh n), .dly .txSetup, .rl .scl, .dly .txHigh, .dl .scl, .dly .txLow]) ∧
    t = { s with
      drvScl := .drivenLow, drvSda := (if bitAt s.sh 0 then .released else .drivenLow), u := 6, i := 0,
      rsp := none, extScl := t.extScl, extSda := t.extSda, tick := t.tick }

/-- R145: from `TX6` three steps release `SDA`, release `SCL` and wait; then `TX9` samples `SDA`: LOW is ACK and goes on
to `AK0`, HIGH is NACK and enters `ACK_FAIL`; `ACKF` takes the sample. -/
def Obligations.AckSampling : Prop :=
  (∀ s : State, s.ph = .byteTransfer → s.u = 6 → s.sched = [] → ∃ t, runSteps 3 s = .next t ∧
    opTrace 3 s = [.rl .sda, .rl .scl, .dly .txAckSample] ∧
    t = { s with
      drvScl := .released, drvSda := .released, u := 9,
      rsp := none, extScl := t.extScl, extSda := t.extSda, tick := t.tick }) ∧
  (∀ s : State, s.ph = .byteTransfer → s.u = 9 → s.drvSda = .released →
    currentOp s = some (.sample .sda) ∧
    (s.extSda = true → engineStep s = .next { s with ackf := false, ph := .ackOk, u := 0 }) ∧
    (s.extSda = false → engineStep s = .next { s with ackf := true, ph := .ackFail, u := 0 }))

/-- R147, R148, R149: `AK0` drives `SCL` low and `AK1` waits; `AK2` of a write goes on to the next byte of the buffer
or, after the last, to STOP; `AK2` of a read goes on to the first received byte or, if none was asked for, to STOP. -/
def Obligations.AckOkDispatch : Prop :=
  (∀ s : State, s.ph = .ackOk → s.u = 0 → s.sched = [] → ∃ t, runSteps 2 s = .next t ∧
    opTrace 2 s = [.dl .scl, .dly .txAckSettle] ∧
    t = { s with
      drvScl := .drivenLow, u := 2, rsp := none, extScl := t.extScl, extSda := t.extSda, tick := t.tick }) ∧
  (∀ s : State, s.ph = .ackOk → s.u = 2 → s.mode = .w → s.len.toNat ≤ 33 →
    (s.k.toNat + 1 < s.len.toNat → engineStep s = .next { s with
      k := s.k + 1, sh := Memory.read s.tb (s.k.toNat + 1), i := 7, ph := .byteTransfer, u := 0 }) ∧
    (¬ s.k.toNat + 1 < s.len.toNat → engineStep s = .next { s with ph := .stop, u := 0 })) ∧
  (∀ s : State, s.ph = .ackOk → s.u = 2 → s.mode = .r →
    (s.nreq = 0 → engineStep s = .next { s with ph := .stop, u := 0 }) ∧
    (s.nreq ≠ 0 → engineStep s = .next { s with j := 0, i := 7, ph := .byteReceive, u := 0 }))

/-- R152, R219: an acknowledgment failure saves nothing; it clears `LASTOK`, `RXCNT` if the transaction is a read, and
the buffer, returns to `IDLE`, answers `(0, 0, 0x00)` in the same step and performs no line event; in a state of the
invariant both lines are released. -/
def Obligations.AckFailureEntry : Prop :=
  ∀ s : State, s.ph = .ackFail → s.u = 0 → currentOp s = some .book ∧
    engineStep s = .next { s with
      lastok := false, rxcnt := (if s.mode = .r then 0 else s.rxcnt), len := 0, ph := .idle, rsp := some 0x0000 } ∧
    (Inv s → s.drvScl = .released ∧ s.drvSda = .released)

/-- R153: at `RX0` with `SCL` free to rise, and `SDA` released, six steps are a delay, `RL(SCL)`, `WAITH(SCL)`, the
sample of `SDA` into `SH[I]`, a delay and `DL(SCL)`; then the next bit or, after bit 0, `RX6`. -/
def Obligations.ReceiveOneBit : Prop :=
  ∀ s : State, s.ph = .byteReceive → s.u = 0 → s.drvSda = .released → s.extScl = false →
    s.sched = List.replicate 6 .block →
    opTrace 6 s = [.dly .rxLow, .rl .scl, .waitH .scl, .sample .sda, .dly .rxHigh, .dl .scl] ∧
    runSteps 6 s = .next { s with
      drvScl := .drivenLow, sh := setBitAt s.sh s.i (!s.extSda), i := (if s.i = 0 then 0 else s.i - 1),
      u := (if s.i = 0 then 6 else 0), rsp := none, sched := [] }

/-- R154, R155: from `RX6` with `SCL` free to rise, twelve steps store the byte at `RB[J]` and run the acknowledgment
slot: `DL(SDA)`, the ACK, for every byte but the last, and no line event, the NACK, for the last; then the next byte,
or STOP after the last. No other byte of `RB` changes. -/
def Obligations.ReceiveAcknowledgment : Prop :=
  ∀ s : State, s.ph = .byteReceive → s.u = 6 → s.j < s.nreq → s.extScl = false → s.sched = List.replicate 12 .block →
    ∃ t, runSteps 12 s = .next t ∧
    opTrace 12 s =
      [.book, .dly .rxAckPre, if s.j.toNat + 1 = s.nreq.toNat then .book else .dl .sda, .dly .rxAckSetup, .rl .scl,
       .waitH .scl, .dly .rxAckHigh, .dl .scl, .dly .rxAckLow, .rl .sda, .dly .rxAckFinal, .book] ∧
    readRb t s.j.toNat = some s.sh ∧ (∀ n, n ≠ s.j.toNat → readRb t n = readRb s n) ∧
    t = { s with
      drvScl := .drivenLow, drvSda := .released, rb := t.rb, j := s.j + 1, rsp := none, sched := [],
      u := 0, ph := (if s.j.toNat + 1 < s.nreq.toNat then .byteReceive else .stop),
      i := (if s.j.toNat + 1 < s.nreq.toNat then 7 else s.i) }

/-- R157, R158: from `SP0`, whatever `BUS` does, seven steps drive `SDA` low, release `SCL` and release `SDA`, with a
delay after each; both lines are then released, `LASTOK` is 1, `RXCNT` is `NREQ` after a read, the buffer is empty,
and the response is `(0, 1, 0x00)` for a write and `(0, 1, NREQ)` for a read. That `U`, `K`, `I`, `J`, `SH`, `MODE`,
`NREQ`, `ACKF`, `TB` and `RB` keep what they hold on the way to `IDLE` is the model's reading of 'any value' (U6; log
entry 10, DEDUCED). -/
def Obligations.StopRoutine : Prop :=
  ∀ s : State, s.ph = .stop → s.u = 0 → s.sched = [] → ∃ t, runSteps 7 s = .next t ∧
    opTrace 7 s = [.dl .sda, .dly .stopSetup, .rl .scl, .dly .stopHigh, .rl .sda, .dly .stopIdle, .book] ∧
    t = { s with
      drvScl := .released, drvSda := .released, lastok := true, rxcnt := (if s.mode = .r then s.nreq else s.rxcnt),
      len := 0, ph := .idle, u := 6,
      rsp := some (if s.mode = .r then responseWord false true s.nreq else 0x0100),
      extScl := t.extScl, extSda := t.extSda, tick := t.tick }

/-- R159: in a state of the invariant, with no other participant holding a line, `ST0` makes a start condition and
`SP4` a stop condition on the wire, and no other labelled step makes either, whatever the others hold. A transaction on
a bus that keeps the proviso of R159 (as log entry 15 reads it: DEDUCED) shows the observer one start condition, one
byte transfer for each byte transmitted or received, and one stop condition if it reached STOP, none if it did not; the
acknowledgment bits of the transmitted bytes are those that the block sampled. -/
def Obligations.StartAndStopConditions : Prop :=
  ∀ (s : State), Inv s →
    (s.ph = .start → s.u = 0 → s.extScl = false → s.extSda = false →
      ∃ t, engineStep s = .next t ∧ startCondition s t = true ∧ stopCondition s t = false) ∧
    (s.ph = .stop → s.u = 4 → s.extScl = false → s.extSda = false →
      ∃ t, engineStep s = .next t ∧ stopCondition s t = true ∧ startCondition s t = false) ∧
    (∀ (t : State), engineStep s = .next t →
      (startCondition s t = true → s.ph = .start ∧ s.u = 0) ∧ (stopCondition s t = true → s.ph = .stop ∧ s.u = 4)) ∧
    (∀ (n : Nat) (t : State), s.ph = .start → s.u = 0 → .rst ∉ s.sched → TransactionEnd n s t → politeBus n s = true →
      ∃ bs : List (Byte × Bool),
        (observe n s).seen =
          .start :: bs.map (fun b => .byteTransfer b.1 b.2) ++ (if t.lastok then [.stop] else []) ∧
        bs.length =
          (if t.lastok then (if s.mode = .r then 1 + s.nreq.toNat else s.len.toNat) else (ackSamples n s).length) ∧
        (bs.map Prod.snd).take (ackSamples n s).length = ackSamples n s)

/-- R160: the line events of a byte: 26 in a transmitted byte and one more if it is acknowledged, with one sample; 20 in
a received byte, 19 in the last one, with nine waits and eight samples. -/
def Obligations.LineEventCounts : Prop :=
  (∀ b, ((txByteOps b).filterMap MicroOp.lineEvent).length = 26 ∧
    ((txByteOps b ++ ackOkOps).filterMap MicroOp.lineEvent).length = 27 ∧
    (txByteOps b ++ ackOkOps).count (.sample .sda) = 1) ∧
  ((rxByteOps false).filterMap MicroOp.lineEvent).length = 20 ∧
  ((rxByteOps true).filterMap MicroOp.lineEvent).length = 19 ∧
  (∀ l, (rxByteOps l).count (.waitH .scl) = 9 ∧ (rxByteOps l).count (.sample .sda) = 8)

/-- R262, R263: the default delays, in nanoseconds, and the least durations of START, a transmitted and acknowledged
byte, a received byte and STOP that follow from them. -/
def Obligations.DefaultDelaysAndDurations : Prop :=
  ([DelayParam.startSetup, .startHold, .txSetup, .txHigh, .txLow, .txAckSample, .txAckSettle, .stopSetup, .stopHigh,
    .stopIdle, .rxLow, .rxHigh, .rxAckPre, .rxAckSetup, .rxAckHigh, .rxAckLow, .rxAckFinal].map
      Config.reference.delay =
    [10000, 10000, 1000, 3000, 6000, 3500, 15000, 10000, 11000, 50000, 15000, 15500, 23000, 2000, 13000, 23000, 2000]) ∧
  (startOps.map (MicroOp.minTime Config.reference)).sum = 20000 ∧
  (∀ b, ((txByteOps b ++ ackOkOps).map (MicroOp.minTime Config.reference)).sum = 98500) ∧
  (∀ l, ((rxByteOps l).map (MicroOp.minTime Config.reference)).sum = 307000) ∧
  (stopOps.map (MicroOp.minTime Config.reference)).sum = 71000

/-! ### Clock stretching -/

/-- R156: the engine is held at `RX2` and `RX11` only, and there exactly while `SCL` is held low by another
participant. That a held turn is a next state equal to the one before is the model's form of 'no enabled step' (R17,
R126; log entry 9, DEDUCED). -/
def Obligations.HeldOnlyInReception : Prop :=
  (∀ (s : State) (l : Label), labelAt s.ph s.u = some l → (microOp l s).run s = .held →
    (l = .rx2 ∨ l = .rx11) ∧ level s .scl = false) ∧
  (∀ (s : State), Inv s → (labelAt s.ph s.u = some .rx2 ∨ labelAt s.ph s.u = some .rx11) →
    (s.extScl = true → engineStep s = .next s) ∧ (s.extScl = false → engineStep s = .next { s with u := s.u + 1 }))

/-- R150: outside byte reception no engine step depends on whether `SCL` is held low by another participant. -/
def Obligations.TransmissionIgnoresStretching : Prop :=
  ∀ (s : State) (b : Bool), s.ph ≠ .byteReceive →
    engineStep { s with extScl := b } =
      match engineStep s with
      | .next t => .next { t with extScl := b }
      | .fault f => .fault f
      | .refused r => .refused r

/-- R216: at a wait of a read, as long as `SCL` is held low by another participant and `rst` stays low, the engine stays
at the step, no response comes out and no command is accepted, however long that lasts. R216 says that the engine has no
enabled step there; that its scheduled turns leave the block unchanged is the model's form of it (log entry 9, DEDUCED),
over schedules that are the model's (log entry 6, DESIGN CHOICE). -/
def Obligations.StallLastsWhileTheClockIsHeld : Prop :=
  ∀ (s : State) (es : List Event), (labelAt s.ph s.u = some .rx2 ∨ labelAt s.ph s.u = some .rx11) →
    s.drvScl = .released → s.extScl = true → s.sched = es →
    (∀ e ∈ es, e = .block ∨ ∃ b, e = .bus true b) →
    ∃ t, runSteps es.length s = .next t ∧
      t = { s with sched := [], rsp := t.rsp, extSda := t.extSda } ∧ (es ≠ [] → t.rsp = none) ∧
      busy t = true ∧ cmdReady t = false

/-! ### The whole machine -/

/-- R44 and the invariants of R43: the state after reset meets the invariant. -/
def Obligations.ResetMeetsTheInvariant : Prop := Inv State.reset

/-- R43: every step keeps the invariant, from every state that meets it, whatever `BUS`, `HOST` and `rst` do. -/
def Obligations.EveryStepKeepsTheInvariant : Prop :=
  ∀ s t : State, Inv s → step s = .next t → Inv t

/-- From every state that meets the invariant the machine has a next state: no fault and no refusal. That commands and
engine steps complete rests on R92, R99 and R141; that a stalled engine, and a block in `IDLE` with no word offered, have
a next state is the model's form of R17's 'held' (log entry 9, DEDUCED), which the spec calls no enabled step. -/
def Obligations.NoFaultAndNoRefusal : Prop :=
  ∀ s : State, Inv s → ∃ t, step s = .next t

/-- R146: in a state of the invariant, the master's line events on `SDA` outside START and STOP happen while it drives
`SCL` low, and it changes `SDA` while it has `SCL` released only at `ST0` and `SP4`; a sample is taken only while
it has `SCL` released. -/
def Obligations.SdaChangesOnlyUnderALowClock : Prop :=
  (∀ (s : State) (o : MicroOp) (d : Drive), Inv s → currentOp s = some o → o.lineEvent = some (.sda, d) →
    (s.ph ≠ .start → s.ph ≠ .stop → s.drvScl = .drivenLow) ∧
    (s.drvScl = .released → labelAt s.ph s.u = some .st0 ∨ labelAt s.ph s.u = some .sp4)) ∧
  (∀ (s : State) (l : Line), Inv s → currentOp s = some (.sample l) → s.drvScl = .released)

/-- R67: no step changes both drive modes, but for a reset cycle and for `INIT`. -/
def Obligations.OneLineAStep : Prop :=
  ∀ s t : State, step s = .next t →
    t.drvScl = s.drvScl ∨ t.drvSda = s.drvSda ∨ (∃ es, s.sched = .rst :: es) ∨
      (s.ph = .idle ∧ ∃ ws, s.cmds = 0x0100 :: ws)

/-- R76: the Transfer Buffer and `LEN` do not change while a transaction runs, but that the last step of it sets `LEN`
to 0; a reset cycle apart. -/
def Obligations.BufferIsFixedDuringATransaction : Prop :=
  ∀ s t : State, s.ph ≠ .idle → (∀ es, s.sched ≠ .rst :: es) → step s = .next t →
    (∀ n, readTb t n = readTb s n) ∧ (t.len = s.len ∨ (t.ph = .idle ∧ t.len = 0)) ∧ t.cmds = s.cmds

/-- R34, R40, R62: `LASTOK` changes only in the last step of a transaction and `RXCNT` only in that of a read; a byte of
`RB` changes only at `RX6`, at index `J`, to `SH`; a reset cycle apart. -/
def Obligations.ResultsChangeOnlyByTheEngine : Prop :=
  ∀ s t : State, (∀ es, s.sched ≠ .rst :: es) → step s = .next t →
    (t.lastok ≠ s.lastok → s.ph ≠ .idle ∧ t.ph = .idle) ∧
    (t.rxcnt ≠ s.rxcnt → s.ph ≠ .idle ∧ t.ph = .idle ∧ s.mode = .r) ∧
    (∀ n, readRb t n ≠ readRb s n → labelAt s.ph s.u = some .rx6 ∧ n = s.j.toNat ∧ readRb t n = some s.sh)

/-- R31, R196: when a transaction ends the buffer is empty; it stays so, in `IDLE`, over every step that accepts no
`SETADDR`; and in every such state the commands `APPEND`, `EXECW` and `EXECR` are the error `0x03`. -/
def Obligations.BufferIsEmptyAfterATransaction : Prop :=
  (∀ s t : State, s.ph ≠ .idle → step s = .next t → t.ph = .idle → t.len = 0 ∧ addressValid t = false) ∧
  (∀ s t : State, s.ph = .idle → s.len = 0 → step s = .next t →
    (t.ph = .idle ∧ t.len = 0) ∨
      ∃ g w ws a7, grant s = some g ∧ s.cmds = w :: ws ∧ decode s.cfg.variant w = .ok (.setaddr a7)) ∧
  (∀ t : State, t.ph = .idle → t.len = 0 →
    exec .execw t = .next { t with rsp := some 0x8003 } ∧
    (∀ b8, exec (.append b8) t = .next { t with rsp := some 0x8003 }) ∧
    (t.cfg.variant = .rw → ∀ n8, exec (.execr n8) t = .next { t with rsp := some 0x8003 }))

/-- R45: no step changes the configuration. -/
def Obligations.ConfigurationIsFixed : Prop :=
  ∀ s t : State, step s = .next t → t.cfg = s.cfg

/-- R32, R34, R36, R44: the registers that the spec leaves unspecified cannot matter: two states that differ in them
alone step to two states that again differ in them alone, with the same responses, lines and commands. So nothing
depends on the values that the model chose for them at reset (log entry 1). -/
def Obligations.UnspecifiedRegistersCannotMatter : Prop :=
  ∀ s t s' : State, Inv s → Inv t → SameLive s t → step s = .next s' →
    ∃ t', step t = .next t' ∧ SameLive s' t'

/-! ### Whole transactions -/

/-- R190, and the source's properties S1 and S2: whatever the target does, a write transaction of `LEN` bytes ends, in
one of two ways. Either every byte is acknowledged (each `TX9` samples LOW), and it performs START, the bytes of the
buffer in order, and STOP, and answers `(0, 1, 0x00)`; or the bytes before `k` are and byte `k` is not (its `TX9` samples
HIGH), and it performs START and `k + 1` bytes, no STOP, and answers `(0, 0, 0x00)`. -/
def Obligations.WriteOutcome : Prop :=
  ∀ s : State, Inv s → s.ph = .start → s.u = 0 → s.mode = .w → .rst ∉ s.sched →
    ∃ n t, TransactionEnd n s t ∧
      t.len = 0 ∧ t.drvScl = .released ∧ t.drvSda = .released ∧ t.rb = s.rb ∧ t.rxcnt = s.rxcnt ∧
      ((ackSamples n s = List.replicate s.len.toNat false ∧
        opTrace n s = startOps ++ (tbBytes s s.len.toNat).flatMap (fun b => txByteOps b ++ ackOkOps) ++ stopOps ∧
        t.rsp = some 0x0100 ∧ t.lastok = true) ∨
      (∃ k, k < s.len.toNat ∧ ackSamples n s = List.replicate k false ++ [true] ∧
        opTrace n s =
          startOps ++ (tbBytes s k).flatMap (fun b => txByteOps b ++ ackOkOps) ++
            txByteOps (Memory.read s.tb k) ++ ackFailOps ∧
        t.rsp = some 0x0000 ∧ t.lastok = false))

/-- R190 first row: with a target that acknowledges every byte, the write succeeds, whatever else the target does: it is
enough that another participant holds `SDA` low at each of the first `LEN` steps `TX9`. -/
def Obligations.AcknowledgedWriteSucceeds : Prop :=
  ∀ (s : State) (n : Nat), Inv s → s.ph = .start → s.u = 0 → s.mode = .w → .rst ∉ s.sched →
    (ackPulls n s).take s.len.toNat = List.replicate s.len.toNat true →
    ∃ m t, TransactionEnd m s t ∧
      opTrace m s = startOps ++ (tbBytes s s.len.toNat).flatMap (fun b => txByteOps b ++ ackOkOps) ++ stopOps ∧
      t.rsp = some 0x0100 ∧ t.lastok = true ∧ t.len = 0 ∧ t.drvScl = .released ∧ t.drvSda = .released

/-- R190 second row: with a target that acknowledges the bytes before `k` and not byte `k`, the write fails there, whatever
else the target does: `k + 1` byte transfers, no STOP. It is enough that another participant holds `SDA` low at the
first `k` steps `TX9` and nobody does at the next. -/
def Obligations.UnacknowledgedByteAborts : Prop :=
  ∀ (s : State) (n k : Nat), Inv s → s.ph = .start → s.u = 0 → s.mode = .w → .rst ∉ s.sched → k < s.len.toNat →
    (ackPulls n s).take (k + 1) = List.replicate k true ++ [false] →
    ∃ m t, TransactionEnd m s t ∧
      opTrace m s =
        startOps ++ (tbBytes s k).flatMap (fun b => txByteOps b ++ ackOkOps) ++
          txByteOps (Memory.read s.tb k) ++ ackFailOps ∧
      t.rsp = some 0x0000 ∧ t.lastok = false ∧ t.len = 0 ∧ t.drvScl = .released ∧ t.drvSda = .released

/-- R193 first row, and the source's property S4. First, on every bus, stretching or not: a read whose address byte is
acknowledged and that ends has performed START, the address byte, the receptions with ACK after all but the last and NACK
after the last, and STOP; it answers `(0, 1, NREQ)` and `RB` holds exactly the bytes that `RX3` sampled, in order. Second,
it ends: with a target that holds `SDA` low until it has acknowledged the address byte, never stretches, and presents the
bytes `ds`, most significant bit first, `RB` holds `ds`. `NREQ = 0` is included (R192). -/
def Obligations.ReadReturnsThePresentedBytes : Prop :=
  (∀ (s t : State) (n : Nat), Inv s → s.ph = .start → s.u = 0 → s.mode = .r → .rst ∉ s.sched →
    TransactionEnd n s t → (ackPulls n s).head? = some true →
      opTrace n s = startOps ++ txByteOps (Memory.read s.tb 0) ++ ackOkOps ++ rxOps s.nreq.toNat ++ stopOps ∧
      t.rsp = some (responseWord false true s.nreq) ∧ t.lastok = true ∧ t.rxcnt = s.nreq ∧ t.len = 0 ∧
      t.drvScl = .released ∧ t.drvSda = .released ∧
      (rxSamples n s).length = 8 * s.nreq.toNat ∧
      ∀ j, j < s.nreq.toNat → readRb t j = some (byteOfBits (((rxSamples n s).drop (8 * j)).take 8))) ∧
  (∀ (s : State) (ds : List Byte), Inv s → s.ph = .start → s.u = 0 → s.mode = .r → s.nreq.toNat = ds.length →
    s.extScl = false → s.extSda = true →
    s.sched = List.replicate 60 .block ++ ds.flatMap presentByte ++ List.replicate 7 .block →
    ∃ t, runSteps (67 + 68 * ds.length) s = .next t ∧
      opTrace (67 + 68 * ds.length) s =
        startOps ++ txByteOps (Memory.read s.tb 0) ++ ackOkOps ++ rxOps ds.length ++ stopOps ∧
      t.rsp = some (responseWord false true s.nreq) ∧ t.lastok = true ∧ t.rxcnt = s.nreq ∧ t.len = 0 ∧ t.ph = .idle ∧
      t.drvScl = .released ∧ t.drvSda = .released ∧ ∀ n, n < ds.length → readRb t n = ds[n]?)

/-- R193 second row: when the address byte of a read is not acknowledged, the read ends after that byte with no STOP,
answers `(0, 0, 0x00)` and `RXCNT` is 0, whatever else the target does: it is enough that nobody holds `SDA` at the first
step `TX9`. -/
def Obligations.UnacknowledgedReadAborts : Prop :=
  ∀ (s : State) (n : Nat), Inv s → s.ph = .start → s.u = 0 → s.mode = .r → .rst ∉ s.sched →
    (ackPulls n s).head? = some false →
    ∃ m t, TransactionEnd m s t ∧
      opTrace m s = startOps ++ txByteOps (Memory.read s.tb 0) ++ ackFailOps ∧
      t.rsp = some 0x0000 ∧ t.lastok = false ∧ t.rxcnt = 0 ∧ t.len = 0 ∧
      t.drvScl = .released ∧ t.drvSda = .released
end

