-- ==== Sys2Proof/Laws/Bits.lean ====
section
/-! SUPPORT. Bits of a byte, the address byte and its direction bit, and the fields of a response word. -/

namespace Sys2Proof
namespace Machine

/-- The bit just stored is the one read back. -/
theorem bitAt_setBitAt_same (v : Byte) (n : BitVec 3) (b : Bool) : bitAt (setBitAt v n b) n = b := by
  have hn := n.isLt
  cases b
  · simp [bitAt, setBitAt]
  · simp [bitAt, setBitAt]; omega

/-- Storing one bit leaves the others alone. -/
theorem bitAt_setBitAt_other (v : Byte) (n m : BitVec 3) (b : Bool) (h : m ≠ n) :
    bitAt (setBitAt v n b) m = bitAt v m := by
  have h' : m.toNat ≠ n.toNat := fun e => h (BitVec.eq_of_toNat_eq e)
  have hm := m.isLt
  have h8 : m.toNat < 8 := hm
  cases b
  · simp [bitAt, setBitAt]; omega
  · by_cases hlt : m.toNat < n.toNat
    · simp [bitAt, setBitAt, h8, hlt]
    · have h0 : m.toNat - n.toNat ≠ 0 := by omega
      simp [bitAt, setBitAt, h8, hlt, h0]

/-- The direction bit of an address byte is `dir` (R183). -/
theorem bitAt_addressByte_zero (a7 : BitVec 7) : bitAt (addressByte a7 0) 0 = false := by
  revert a7; decide

/-- Forcing the direction to write clears bit 0 and keeps the address (R189). -/
theorem bitAt_withDirWrite_zero (v : Byte) : bitAt (withDirWrite v) 0 = false := by
  revert v; decide +kernel

/-- Setting the direction to read sets bit 0 (R191). -/
theorem bitAt_withDirRead_zero (v : Byte) : bitAt (withDirRead v) 0 = true := by
  revert v; decide +kernel

/-! The response words of the commands without a value and of the command errors (R97, R214). -/

@[simp] theorem responseWord_done : responseWord false true 0#8 = 0x0100#16 := by decide

@[simp] theorem responseWord_fail : responseWord false false 0#8 = 0x0000#16 := by decide

@[simp] theorem responseWord_illegalOpcode : responseWord true false (errorCode .illegalOpcode) = 0x8001#16 := by decide

@[simp] theorem responseWord_reservedOperand : responseWord true false (errorCode .reservedOperand) = 0x8002#16 := by decide

@[simp] theorem responseWord_noAddress : responseWord true false (errorCode .noAddress) = 0x8003#16 := by decide

@[simp] theorem responseWord_rxIndex : responseWord true false (errorCode .rxIndex) = 0x8004#16 := by decide

/-- Bit 15 of a response is `E` (R96). -/
@[simp] theorem responseWord_error (e r : Bool) (v : Byte) : (responseWord e r v).getLsbD 15 = e := by
  revert v; cases e <;> cases r <;> decide +kernel

/-- Both keep the seven address bits (R183). -/
theorem address_withDir (v : Byte) :
    (withDirWrite v).extractLsb' 1 7 = v.extractLsb' 1 7 ∧ (withDirRead v).extractLsb' 1 7 = v.extractLsb' 1 7 := by
  revert v; decide +kernel

end Machine
end Sys2Proof
end

