-- ==== Sys2Proof/Laws/State.lean ====
section
/-! SUPPORT. One lemma per field per state update, each true by `rfl`, so that no later proof unfolds a record update. -/

namespace Sys2Proof
namespace Machine

variable (s : State)

@[simp] theorem advance_drvScl : (advance s).drvScl = s.drvScl := rfl
@[simp] theorem advance_drvSda : (advance s).drvSda = s.drvSda := rfl
@[simp] theorem advance_tb : (advance s).tb = s.tb := rfl
@[simp] theorem advance_len : (advance s).len = s.len := rfl
@[simp] theorem advance_rb : (advance s).rb = s.rb := rfl
@[simp] theorem advance_rxcnt : (advance s).rxcnt = s.rxcnt := rfl
@[simp] theorem advance_ph : (advance s).ph = s.ph := rfl
@[simp] theorem advance_u : (advance s).u = s.u + 1 := rfl
@[simp] theorem advance_k : (advance s).k = s.k := rfl
@[simp] theorem advance_i : (advance s).i = s.i := rfl
@[simp] theorem advance_j : (advance s).j = s.j := rfl
@[simp] theorem advance_sh : (advance s).sh = s.sh := rfl
@[simp] theorem advance_mode : (advance s).mode = s.mode := rfl
@[simp] theorem advance_nreq : (advance s).nreq = s.nreq := rfl
@[simp] theorem advance_ackf : (advance s).ackf = s.ackf := rfl
@[simp] theorem advance_lastok : (advance s).lastok = s.lastok := rfl
@[simp] theorem advance_extScl : (advance s).extScl = s.extScl := rfl
@[simp] theorem advance_extSda : (advance s).extSda = s.extSda := rfl
@[simp] theorem advance_cmds : (advance s).cmds = s.cmds := rfl
@[simp] theorem advance_rsp : (advance s).rsp = s.rsp := rfl
@[simp] theorem advance_cfg : (advance s).cfg = s.cfg := rfl
@[simp] theorem advance_sched : (advance s).sched = s.sched := rfl
@[simp] theorem advance_tick : (advance s).tick = s.tick := rfl

@[simp] theorem jump_drvScl (n : BitVec 5) : (jump n s).drvScl = s.drvScl := rfl
@[simp] theorem jump_drvSda (n : BitVec 5) : (jump n s).drvSda = s.drvSda := rfl
@[simp] theorem jump_tb (n : BitVec 5) : (jump n s).tb = s.tb := rfl
@[simp] theorem jump_len (n : BitVec 5) : (jump n s).len = s.len := rfl
@[simp] theorem jump_rb (n : BitVec 5) : (jump n s).rb = s.rb := rfl
@[simp] theorem jump_rxcnt (n : BitVec 5) : (jump n s).rxcnt = s.rxcnt := rfl
@[simp] theorem jump_ph (n : BitVec 5) : (jump n s).ph = s.ph := rfl
@[simp] theorem jump_u (n : BitVec 5) : (jump n s).u = n := rfl
@[simp] theorem jump_k (n : BitVec 5) : (jump n s).k = s.k := rfl
@[simp] theorem jump_i (n : BitVec 5) : (jump n s).i = s.i := rfl
@[simp] theorem jump_j (n : BitVec 5) : (jump n s).j = s.j := rfl
@[simp] theorem jump_sh (n : BitVec 5) : (jump n s).sh = s.sh := rfl
@[simp] theorem jump_mode (n : BitVec 5) : (jump n s).mode = s.mode := rfl
@[simp] theorem jump_nreq (n : BitVec 5) : (jump n s).nreq = s.nreq := rfl
@[simp] theorem jump_ackf (n : BitVec 5) : (jump n s).ackf = s.ackf := rfl
@[simp] theorem jump_lastok (n : BitVec 5) : (jump n s).lastok = s.lastok := rfl
@[simp] theorem jump_extScl (n : BitVec 5) : (jump n s).extScl = s.extScl := rfl
@[simp] theorem jump_extSda (n : BitVec 5) : (jump n s).extSda = s.extSda := rfl
@[simp] theorem jump_cmds (n : BitVec 5) : (jump n s).cmds = s.cmds := rfl
@[simp] theorem jump_rsp (n : BitVec 5) : (jump n s).rsp = s.rsp := rfl
@[simp] theorem jump_cfg (n : BitVec 5) : (jump n s).cfg = s.cfg := rfl
@[simp] theorem jump_sched (n : BitVec 5) : (jump n s).sched = s.sched := rfl
@[simp] theorem jump_tick (n : BitVec 5) : (jump n s).tick = s.tick := rfl

@[simp] theorem enterPhase_drvScl (p : Phase) : (enterPhase p s).drvScl = s.drvScl := rfl
@[simp] theorem enterPhase_drvSda (p : Phase) : (enterPhase p s).drvSda = s.drvSda := rfl
@[simp] theorem enterPhase_tb (p : Phase) : (enterPhase p s).tb = s.tb := rfl
@[simp] theorem enterPhase_len (p : Phase) : (enterPhase p s).len = s.len := rfl
@[simp] theorem enterPhase_rb (p : Phase) : (enterPhase p s).rb = s.rb := rfl
@[simp] theorem enterPhase_rxcnt (p : Phase) : (enterPhase p s).rxcnt = s.rxcnt := rfl
@[simp] theorem enterPhase_ph (p : Phase) : (enterPhase p s).ph = p := rfl
@[simp] theorem enterPhase_u (p : Phase) : (enterPhase p s).u = 0 := rfl
@[simp] theorem enterPhase_k (p : Phase) : (enterPhase p s).k = s.k := rfl
@[simp] theorem enterPhase_i (p : Phase) : (enterPhase p s).i = s.i := rfl
@[simp] theorem enterPhase_j (p : Phase) : (enterPhase p s).j = s.j := rfl
@[simp] theorem enterPhase_sh (p : Phase) : (enterPhase p s).sh = s.sh := rfl
@[simp] theorem enterPhase_mode (p : Phase) : (enterPhase p s).mode = s.mode := rfl
@[simp] theorem enterPhase_nreq (p : Phase) : (enterPhase p s).nreq = s.nreq := rfl
@[simp] theorem enterPhase_ackf (p : Phase) : (enterPhase p s).ackf = s.ackf := rfl
@[simp] theorem enterPhase_lastok (p : Phase) : (enterPhase p s).lastok = s.lastok := rfl
@[simp] theorem enterPhase_extScl (p : Phase) : (enterPhase p s).extScl = s.extScl := rfl
@[simp] theorem enterPhase_extSda (p : Phase) : (enterPhase p s).extSda = s.extSda := rfl
@[simp] theorem enterPhase_cmds (p : Phase) : (enterPhase p s).cmds = s.cmds := rfl
@[simp] theorem enterPhase_rsp (p : Phase) : (enterPhase p s).rsp = s.rsp := rfl
@[simp] theorem enterPhase_cfg (p : Phase) : (enterPhase p s).cfg = s.cfg := rfl
@[simp] theorem enterPhase_sched (p : Phase) : (enterPhase p s).sched = s.sched := rfl
@[simp] theorem enterPhase_tick (p : Phase) : (enterPhase p s).tick = s.tick := rfl

@[simp] theorem raiseAckFail_drvScl : (raiseAckFail s).drvScl = s.drvScl := rfl
@[simp] theorem raiseAckFail_drvSda : (raiseAckFail s).drvSda = s.drvSda := rfl
@[simp] theorem raiseAckFail_tb : (raiseAckFail s).tb = s.tb := rfl
@[simp] theorem raiseAckFail_len : (raiseAckFail s).len = s.len := rfl
@[simp] theorem raiseAckFail_rb : (raiseAckFail s).rb = s.rb := rfl
@[simp] theorem raiseAckFail_rxcnt : (raiseAckFail s).rxcnt = s.rxcnt := rfl
@[simp] theorem raiseAckFail_ph : (raiseAckFail s).ph = .ackFail := rfl
@[simp] theorem raiseAckFail_u : (raiseAckFail s).u = 0 := rfl
@[simp] theorem raiseAckFail_k : (raiseAckFail s).k = s.k := rfl
@[simp] theorem raiseAckFail_i : (raiseAckFail s).i = s.i := rfl
@[simp] theorem raiseAckFail_j : (raiseAckFail s).j = s.j := rfl
@[simp] theorem raiseAckFail_sh : (raiseAckFail s).sh = s.sh := rfl
@[simp] theorem raiseAckFail_mode : (raiseAckFail s).mode = s.mode := rfl
@[simp] theorem raiseAckFail_nreq : (raiseAckFail s).nreq = s.nreq := rfl
@[simp] theorem raiseAckFail_ackf : (raiseAckFail s).ackf = s.ackf := rfl
@[simp] theorem raiseAckFail_lastok : (raiseAckFail s).lastok = s.lastok := rfl
@[simp] theorem raiseAckFail_extScl : (raiseAckFail s).extScl = s.extScl := rfl
@[simp] theorem raiseAckFail_extSda : (raiseAckFail s).extSda = s.extSda := rfl
@[simp] theorem raiseAckFail_cmds : (raiseAckFail s).cmds = s.cmds := rfl
@[simp] theorem raiseAckFail_rsp : (raiseAckFail s).rsp = s.rsp := rfl
@[simp] theorem raiseAckFail_cfg : (raiseAckFail s).cfg = s.cfg := rfl
@[simp] theorem raiseAckFail_sched : (raiseAckFail s).sched = s.sched := rfl
@[simp] theorem raiseAckFail_tick : (raiseAckFail s).tick = s.tick := rfl

@[simp] theorem respond_drvScl (e r : Bool) (v : Byte) : (respond e r v s).drvScl = s.drvScl := rfl
@[simp] theorem respond_drvSda (e r : Bool) (v : Byte) : (respond e r v s).drvSda = s.drvSda := rfl
@[simp] theorem respond_tb (e r : Bool) (v : Byte) : (respond e r v s).tb = s.tb := rfl
@[simp] theorem respond_len (e r : Bool) (v : Byte) : (respond e r v s).len = s.len := rfl
@[simp] theorem respond_rb (e r : Bool) (v : Byte) : (respond e r v s).rb = s.rb := rfl
@[simp] theorem respond_rxcnt (e r : Bool) (v : Byte) : (respond e r v s).rxcnt = s.rxcnt := rfl
@[simp] theorem respond_ph (e r : Bool) (v : Byte) : (respond e r v s).ph = s.ph := rfl
@[simp] theorem respond_u (e r : Bool) (v : Byte) : (respond e r v s).u = s.u := rfl
@[simp] theorem respond_k (e r : Bool) (v : Byte) : (respond e r v s).k = s.k := rfl
@[simp] theorem respond_i (e r : Bool) (v : Byte) : (respond e r v s).i = s.i := rfl
@[simp] theorem respond_j (e r : Bool) (v : Byte) : (respond e r v s).j = s.j := rfl
@[simp] theorem respond_sh (e r : Bool) (v : Byte) : (respond e r v s).sh = s.sh := rfl
@[simp] theorem respond_mode (e r : Bool) (v : Byte) : (respond e r v s).mode = s.mode := rfl
@[simp] theorem respond_nreq (e r : Bool) (v : Byte) : (respond e r v s).nreq = s.nreq := rfl
@[simp] theorem respond_ackf (e r : Bool) (v : Byte) : (respond e r v s).ackf = s.ackf := rfl
@[simp] theorem respond_lastok (e r : Bool) (v : Byte) : (respond e r v s).lastok = s.lastok := rfl
@[simp] theorem respond_extScl (e r : Bool) (v : Byte) : (respond e r v s).extScl = s.extScl := rfl
@[simp] theorem respond_extSda (e r : Bool) (v : Byte) : (respond e r v s).extSda = s.extSda := rfl
@[simp] theorem respond_cmds (e r : Bool) (v : Byte) : (respond e r v s).cmds = s.cmds := rfl
@[simp] theorem respond_rsp (e r : Bool) (v : Byte) : (respond e r v s).rsp = some (responseWord e r v) := rfl
@[simp] theorem respond_cfg (e r : Bool) (v : Byte) : (respond e r v s).cfg = s.cfg := rfl
@[simp] theorem respond_sched (e r : Bool) (v : Byte) : (respond e r v s).sched = s.sched := rfl
@[simp] theorem respond_tick (e r : Bool) (v : Byte) : (respond e r v s).tick = s.tick := rfl

@[simp] theorem writeTb_drvScl (n : Nat) (v : Byte) : (writeTb n v s).drvScl = s.drvScl := rfl
@[simp] theorem writeTb_drvSda (n : Nat) (v : Byte) : (writeTb n v s).drvSda = s.drvSda := rfl
@[simp] theorem writeTb_tb (n : Nat) (v : Byte) : (writeTb n v s).tb = Memory.write s.tb n v := rfl
@[simp] theorem writeTb_len (n : Nat) (v : Byte) : (writeTb n v s).len = s.len := rfl
@[simp] theorem writeTb_rb (n : Nat) (v : Byte) : (writeTb n v s).rb = s.rb := rfl
@[simp] theorem writeTb_rxcnt (n : Nat) (v : Byte) : (writeTb n v s).rxcnt = s.rxcnt := rfl
@[simp] theorem writeTb_ph (n : Nat) (v : Byte) : (writeTb n v s).ph = s.ph := rfl
@[simp] theorem writeTb_u (n : Nat) (v : Byte) : (writeTb n v s).u = s.u := rfl
@[simp] theorem writeTb_k (n : Nat) (v : Byte) : (writeTb n v s).k = s.k := rfl
@[simp] theorem writeTb_i (n : Nat) (v : Byte) : (writeTb n v s).i = s.i := rfl
@[simp] theorem writeTb_j (n : Nat) (v : Byte) : (writeTb n v s).j = s.j := rfl
@[simp] theorem writeTb_sh (n : Nat) (v : Byte) : (writeTb n v s).sh = s.sh := rfl
@[simp] theorem writeTb_mode (n : Nat) (v : Byte) : (writeTb n v s).mode = s.mode := rfl
@[simp] theorem writeTb_nreq (n : Nat) (v : Byte) : (writeTb n v s).nreq = s.nreq := rfl
@[simp] theorem writeTb_ackf (n : Nat) (v : Byte) : (writeTb n v s).ackf = s.ackf := rfl
@[simp] theorem writeTb_lastok (n : Nat) (v : Byte) : (writeTb n v s).lastok = s.lastok := rfl
@[simp] theorem writeTb_extScl (n : Nat) (v : Byte) : (writeTb n v s).extScl = s.extScl := rfl
@[simp] theorem writeTb_extSda (n : Nat) (v : Byte) : (writeTb n v s).extSda = s.extSda := rfl
@[simp] theorem writeTb_cmds (n : Nat) (v : Byte) : (writeTb n v s).cmds = s.cmds := rfl
@[simp] theorem writeTb_rsp (n : Nat) (v : Byte) : (writeTb n v s).rsp = s.rsp := rfl
@[simp] theorem writeTb_cfg (n : Nat) (v : Byte) : (writeTb n v s).cfg = s.cfg := rfl
@[simp] theorem writeTb_sched (n : Nat) (v : Byte) : (writeTb n v s).sched = s.sched := rfl
@[simp] theorem writeTb_tick (n : Nat) (v : Byte) : (writeTb n v s).tick = s.tick := rfl

@[simp] theorem writeRb_drvScl (n : Nat) (v : Byte) : (writeRb n v s).drvScl = s.drvScl := rfl
@[simp] theorem writeRb_drvSda (n : Nat) (v : Byte) : (writeRb n v s).drvSda = s.drvSda := rfl
@[simp] theorem writeRb_tb (n : Nat) (v : Byte) : (writeRb n v s).tb = s.tb := rfl
@[simp] theorem writeRb_len (n : Nat) (v : Byte) : (writeRb n v s).len = s.len := rfl
@[simp] theorem writeRb_rb (n : Nat) (v : Byte) : (writeRb n v s).rb = Memory.write s.rb n v := rfl
@[simp] theorem writeRb_rxcnt (n : Nat) (v : Byte) : (writeRb n v s).rxcnt = s.rxcnt := rfl
@[simp] theorem writeRb_ph (n : Nat) (v : Byte) : (writeRb n v s).ph = s.ph := rfl
@[simp] theorem writeRb_u (n : Nat) (v : Byte) : (writeRb n v s).u = s.u := rfl
@[simp] theorem writeRb_k (n : Nat) (v : Byte) : (writeRb n v s).k = s.k := rfl
@[simp] theorem writeRb_i (n : Nat) (v : Byte) : (writeRb n v s).i = s.i := rfl
@[simp] theorem writeRb_j (n : Nat) (v : Byte) : (writeRb n v s).j = s.j := rfl
@[simp] theorem writeRb_sh (n : Nat) (v : Byte) : (writeRb n v s).sh = s.sh := rfl
@[simp] theorem writeRb_mode (n : Nat) (v : Byte) : (writeRb n v s).mode = s.mode := rfl
@[simp] theorem writeRb_nreq (n : Nat) (v : Byte) : (writeRb n v s).nreq = s.nreq := rfl
@[simp] theorem writeRb_ackf (n : Nat) (v : Byte) : (writeRb n v s).ackf = s.ackf := rfl
@[simp] theorem writeRb_lastok (n : Nat) (v : Byte) : (writeRb n v s).lastok = s.lastok := rfl
@[simp] theorem writeRb_extScl (n : Nat) (v : Byte) : (writeRb n v s).extScl = s.extScl := rfl
@[simp] theorem writeRb_extSda (n : Nat) (v : Byte) : (writeRb n v s).extSda = s.extSda := rfl
@[simp] theorem writeRb_cmds (n : Nat) (v : Byte) : (writeRb n v s).cmds = s.cmds := rfl
@[simp] theorem writeRb_rsp (n : Nat) (v : Byte) : (writeRb n v s).rsp = s.rsp := rfl
@[simp] theorem writeRb_cfg (n : Nat) (v : Byte) : (writeRb n v s).cfg = s.cfg := rfl
@[simp] theorem writeRb_sched (n : Nat) (v : Byte) : (writeRb n v s).sched = s.sched := rfl
@[simp] theorem writeRb_tick (n : Nat) (v : Byte) : (writeRb n v s).tick = s.tick := rfl

@[simp] theorem setLen_drvScl (n : BitVec 6) : (setLen n s).drvScl = s.drvScl := rfl
@[simp] theorem setLen_drvSda (n : BitVec 6) : (setLen n s).drvSda = s.drvSda := rfl
@[simp] theorem setLen_tb (n : BitVec 6) : (setLen n s).tb = s.tb := rfl
@[simp] theorem setLen_len (n : BitVec 6) : (setLen n s).len = n := rfl
@[simp] theorem setLen_rb (n : BitVec 6) : (setLen n s).rb = s.rb := rfl
@[simp] theorem setLen_rxcnt (n : BitVec 6) : (setLen n s).rxcnt = s.rxcnt := rfl
@[simp] theorem setLen_ph (n : BitVec 6) : (setLen n s).ph = s.ph := rfl
@[simp] theorem setLen_u (n : BitVec 6) : (setLen n s).u = s.u := rfl
@[simp] theorem setLen_k (n : BitVec 6) : (setLen n s).k = s.k := rfl
@[simp] theorem setLen_i (n : BitVec 6) : (setLen n s).i = s.i := rfl
@[simp] theorem setLen_j (n : BitVec 6) : (setLen n s).j = s.j := rfl
@[simp] theorem setLen_sh (n : BitVec 6) : (setLen n s).sh = s.sh := rfl
@[simp] theorem setLen_mode (n : BitVec 6) : (setLen n s).mode = s.mode := rfl
@[simp] theorem setLen_nreq (n : BitVec 6) : (setLen n s).nreq = s.nreq := rfl
@[simp] theorem setLen_ackf (n : BitVec 6) : (setLen n s).ackf = s.ackf := rfl
@[simp] theorem setLen_lastok (n : BitVec 6) : (setLen n s).lastok = s.lastok := rfl
@[simp] theorem setLen_extScl (n : BitVec 6) : (setLen n s).extScl = s.extScl := rfl
@[simp] theorem setLen_extSda (n : BitVec 6) : (setLen n s).extSda = s.extSda := rfl
@[simp] theorem setLen_cmds (n : BitVec 6) : (setLen n s).cmds = s.cmds := rfl
@[simp] theorem setLen_rsp (n : BitVec 6) : (setLen n s).rsp = s.rsp := rfl
@[simp] theorem setLen_cfg (n : BitVec 6) : (setLen n s).cfg = s.cfg := rfl
@[simp] theorem setLen_sched (n : BitVec 6) : (setLen n s).sched = s.sched := rfl
@[simp] theorem setLen_tick (n : BitVec 6) : (setLen n s).tick = s.tick := rfl

@[simp] theorem setNreq_drvScl (n : BitVec 8) : (setNreq n s).drvScl = s.drvScl := rfl
@[simp] theorem setNreq_drvSda (n : BitVec 8) : (setNreq n s).drvSda = s.drvSda := rfl
@[simp] theorem setNreq_tb (n : BitVec 8) : (setNreq n s).tb = s.tb := rfl
@[simp] theorem setNreq_len (n : BitVec 8) : (setNreq n s).len = s.len := rfl
@[simp] theorem setNreq_rb (n : BitVec 8) : (setNreq n s).rb = s.rb := rfl
@[simp] theorem setNreq_rxcnt (n : BitVec 8) : (setNreq n s).rxcnt = s.rxcnt := rfl
@[simp] theorem setNreq_ph (n : BitVec 8) : (setNreq n s).ph = s.ph := rfl
@[simp] theorem setNreq_u (n : BitVec 8) : (setNreq n s).u = s.u := rfl
@[simp] theorem setNreq_k (n : BitVec 8) : (setNreq n s).k = s.k := rfl
@[simp] theorem setNreq_i (n : BitVec 8) : (setNreq n s).i = s.i := rfl
@[simp] theorem setNreq_j (n : BitVec 8) : (setNreq n s).j = s.j := rfl
@[simp] theorem setNreq_sh (n : BitVec 8) : (setNreq n s).sh = s.sh := rfl
@[simp] theorem setNreq_mode (n : BitVec 8) : (setNreq n s).mode = s.mode := rfl
@[simp] theorem setNreq_nreq (n : BitVec 8) : (setNreq n s).nreq = n := rfl
@[simp] theorem setNreq_ackf (n : BitVec 8) : (setNreq n s).ackf = s.ackf := rfl
@[simp] theorem setNreq_lastok (n : BitVec 8) : (setNreq n s).lastok = s.lastok := rfl
@[simp] theorem setNreq_extScl (n : BitVec 8) : (setNreq n s).extScl = s.extScl := rfl
@[simp] theorem setNreq_extSda (n : BitVec 8) : (setNreq n s).extSda = s.extSda := rfl
@[simp] theorem setNreq_cmds (n : BitVec 8) : (setNreq n s).cmds = s.cmds := rfl
@[simp] theorem setNreq_rsp (n : BitVec 8) : (setNreq n s).rsp = s.rsp := rfl
@[simp] theorem setNreq_cfg (n : BitVec 8) : (setNreq n s).cfg = s.cfg := rfl
@[simp] theorem setNreq_sched (n : BitVec 8) : (setNreq n s).sched = s.sched := rfl
@[simp] theorem setNreq_tick (n : BitVec 8) : (setNreq n s).tick = s.tick := rfl

@[simp] theorem startTransaction_drvScl (m : XferMode) : (startTransaction m s).drvScl = s.drvScl := rfl
@[simp] theorem startTransaction_drvSda (m : XferMode) : (startTransaction m s).drvSda = s.drvSda := rfl
@[simp] theorem startTransaction_tb (m : XferMode) : (startTransaction m s).tb = s.tb := rfl
@[simp] theorem startTransaction_len (m : XferMode) : (startTransaction m s).len = s.len := rfl
@[simp] theorem startTransaction_rb (m : XferMode) : (startTransaction m s).rb = s.rb := rfl
@[simp] theorem startTransaction_rxcnt (m : XferMode) : (startTransaction m s).rxcnt = s.rxcnt := rfl
@[simp] theorem startTransaction_ph (m : XferMode) : (startTransaction m s).ph = .start := rfl
@[simp] theorem startTransaction_u (m : XferMode) : (startTransaction m s).u = 0 := rfl
@[simp] theorem startTransaction_k (m : XferMode) : (startTransaction m s).k = s.k := rfl
@[simp] theorem startTransaction_i (m : XferMode) : (startTransaction m s).i = s.i := rfl
@[simp] theorem startTransaction_j (m : XferMode) : (startTransaction m s).j = s.j := rfl
@[simp] theorem startTransaction_sh (m : XferMode) : (startTransaction m s).sh = s.sh := rfl
@[simp] theorem startTransaction_mode (m : XferMode) : (startTransaction m s).mode = m := rfl
@[simp] theorem startTransaction_nreq (m : XferMode) : (startTransaction m s).nreq = s.nreq := rfl
@[simp] theorem startTransaction_ackf (m : XferMode) : (startTransaction m s).ackf = s.ackf := rfl
@[simp] theorem startTransaction_lastok (m : XferMode) : (startTransaction m s).lastok = s.lastok := rfl
@[simp] theorem startTransaction_extScl (m : XferMode) : (startTransaction m s).extScl = s.extScl := rfl
@[simp] theorem startTransaction_extSda (m : XferMode) : (startTransaction m s).extSda = s.extSda := rfl
@[simp] theorem startTransaction_cmds (m : XferMode) : (startTransaction m s).cmds = s.cmds := rfl
@[simp] theorem startTransaction_rsp (m : XferMode) : (startTransaction m s).rsp = s.rsp := rfl
@[simp] theorem startTransaction_cfg (m : XferMode) : (startTransaction m s).cfg = s.cfg := rfl
@[simp] theorem startTransaction_sched (m : XferMode) : (startTransaction m s).sched = s.sched := rfl
@[simp] theorem startTransaction_tick (m : XferMode) : (startTransaction m s).tick = s.tick := rfl

@[simp] theorem endTransaction_drvScl (ok : Bool) (c : BitVec 8) : (endTransaction ok c s).drvScl = s.drvScl := rfl
@[simp] theorem endTransaction_drvSda (ok : Bool) (c : BitVec 8) : (endTransaction ok c s).drvSda = s.drvSda := rfl
@[simp] theorem endTransaction_tb (ok : Bool) (c : BitVec 8) : (endTransaction ok c s).tb = s.tb := rfl
@[simp] theorem endTransaction_len (ok : Bool) (c : BitVec 8) : (endTransaction ok c s).len = 0 := rfl
@[simp] theorem endTransaction_rb (ok : Bool) (c : BitVec 8) : (endTransaction ok c s).rb = s.rb := rfl
@[simp] theorem endTransaction_rxcnt (ok : Bool) (c : BitVec 8) : (endTransaction ok c s).rxcnt = if s.mode = .r then c else s.rxcnt := rfl
@[simp] theorem endTransaction_ph (ok : Bool) (c : BitVec 8) : (endTransaction ok c s).ph = .idle := rfl
@[simp] theorem endTransaction_u (ok : Bool) (c : BitVec 8) : (endTransaction ok c s).u = s.u := rfl
@[simp] theorem endTransaction_k (ok : Bool) (c : BitVec 8) : (endTransaction ok c s).k = s.k := rfl
@[simp] theorem endTransaction_i (ok : Bool) (c : BitVec 8) : (endTransaction ok c s).i = s.i := rfl
@[simp] theorem endTransaction_j (ok : Bool) (c : BitVec 8) : (endTransaction ok c s).j = s.j := rfl
@[simp] theorem endTransaction_sh (ok : Bool) (c : BitVec 8) : (endTransaction ok c s).sh = s.sh := rfl
@[simp] theorem endTransaction_mode (ok : Bool) (c : BitVec 8) : (endTransaction ok c s).mode = s.mode := rfl
@[simp] theorem endTransaction_nreq (ok : Bool) (c : BitVec 8) : (endTransaction ok c s).nreq = s.nreq := rfl
@[simp] theorem endTransaction_ackf (ok : Bool) (c : BitVec 8) : (endTransaction ok c s).ackf = s.ackf := rfl
@[simp] theorem endTransaction_lastok (ok : Bool) (c : BitVec 8) : (endTransaction ok c s).lastok = ok := rfl
@[simp] theorem endTransaction_extScl (ok : Bool) (c : BitVec 8) : (endTransaction ok c s).extScl = s.extScl := rfl
@[simp] theorem endTransaction_extSda (ok : Bool) (c : BitVec 8) : (endTransaction ok c s).extSda = s.extSda := rfl
@[simp] theorem endTransaction_cmds (ok : Bool) (c : BitVec 8) : (endTransaction ok c s).cmds = s.cmds := rfl
@[simp] theorem endTransaction_rsp (ok : Bool) (c : BitVec 8) : (endTransaction ok c s).rsp = s.rsp := rfl
@[simp] theorem endTransaction_cfg (ok : Bool) (c : BitVec 8) : (endTransaction ok c s).cfg = s.cfg := rfl
@[simp] theorem endTransaction_sched (ok : Bool) (c : BitVec 8) : (endTransaction ok c s).sched = s.sched := rfl
@[simp] theorem endTransaction_tick (ok : Bool) (c : BitVec 8) : (endTransaction ok c s).tick = s.tick := rfl

@[simp] theorem clearRsp_drvScl : (clearRsp s).drvScl = s.drvScl := rfl
@[simp] theorem clearRsp_drvSda : (clearRsp s).drvSda = s.drvSda := rfl
@[simp] theorem clearRsp_tb : (clearRsp s).tb = s.tb := rfl
@[simp] theorem clearRsp_len : (clearRsp s).len = s.len := rfl
@[simp] theorem clearRsp_rb : (clearRsp s).rb = s.rb := rfl
@[simp] theorem clearRsp_rxcnt : (clearRsp s).rxcnt = s.rxcnt := rfl
@[simp] theorem clearRsp_ph : (clearRsp s).ph = s.ph := rfl
@[simp] theorem clearRsp_u : (clearRsp s).u = s.u := rfl
@[simp] theorem clearRsp_k : (clearRsp s).k = s.k := rfl
@[simp] theorem clearRsp_i : (clearRsp s).i = s.i := rfl
@[simp] theorem clearRsp_j : (clearRsp s).j = s.j := rfl
@[simp] theorem clearRsp_sh : (clearRsp s).sh = s.sh := rfl
@[simp] theorem clearRsp_mode : (clearRsp s).mode = s.mode := rfl
@[simp] theorem clearRsp_nreq : (clearRsp s).nreq = s.nreq := rfl
@[simp] theorem clearRsp_ackf : (clearRsp s).ackf = s.ackf := rfl
@[simp] theorem clearRsp_lastok : (clearRsp s).lastok = s.lastok := rfl
@[simp] theorem clearRsp_extScl : (clearRsp s).extScl = s.extScl := rfl
@[simp] theorem clearRsp_extSda : (clearRsp s).extSda = s.extSda := rfl
@[simp] theorem clearRsp_cmds : (clearRsp s).cmds = s.cmds := rfl
@[simp] theorem clearRsp_rsp : (clearRsp s).rsp = none := rfl
@[simp] theorem clearRsp_cfg : (clearRsp s).cfg = s.cfg := rfl
@[simp] theorem clearRsp_sched : (clearRsp s).sched = s.sched := rfl
@[simp] theorem clearRsp_tick : (clearRsp s).tick = s.tick := rfl

@[simp] theorem busStep_drvScl (a b : Bool) : (busStep a b s).drvScl = s.drvScl := rfl
@[simp] theorem busStep_drvSda (a b : Bool) : (busStep a b s).drvSda = s.drvSda := rfl
@[simp] theorem busStep_tb (a b : Bool) : (busStep a b s).tb = s.tb := rfl
@[simp] theorem busStep_len (a b : Bool) : (busStep a b s).len = s.len := rfl
@[simp] theorem busStep_rb (a b : Bool) : (busStep a b s).rb = s.rb := rfl
@[simp] theorem busStep_rxcnt (a b : Bool) : (busStep a b s).rxcnt = s.rxcnt := rfl
@[simp] theorem busStep_ph (a b : Bool) : (busStep a b s).ph = s.ph := rfl
@[simp] theorem busStep_u (a b : Bool) : (busStep a b s).u = s.u := rfl
@[simp] theorem busStep_k (a b : Bool) : (busStep a b s).k = s.k := rfl
@[simp] theorem busStep_i (a b : Bool) : (busStep a b s).i = s.i := rfl
@[simp] theorem busStep_j (a b : Bool) : (busStep a b s).j = s.j := rfl
@[simp] theorem busStep_sh (a b : Bool) : (busStep a b s).sh = s.sh := rfl
@[simp] theorem busStep_mode (a b : Bool) : (busStep a b s).mode = s.mode := rfl
@[simp] theorem busStep_nreq (a b : Bool) : (busStep a b s).nreq = s.nreq := rfl
@[simp] theorem busStep_ackf (a b : Bool) : (busStep a b s).ackf = s.ackf := rfl
@[simp] theorem busStep_lastok (a b : Bool) : (busStep a b s).lastok = s.lastok := rfl
@[simp] theorem busStep_extScl (a b : Bool) : (busStep a b s).extScl = a := rfl
@[simp] theorem busStep_extSda (a b : Bool) : (busStep a b s).extSda = b := rfl
@[simp] theorem busStep_cmds (a b : Bool) : (busStep a b s).cmds = s.cmds := rfl
@[simp] theorem busStep_rsp (a b : Bool) : (busStep a b s).rsp = s.rsp := rfl
@[simp] theorem busStep_cfg (a b : Bool) : (busStep a b s).cfg = s.cfg := rfl
@[simp] theorem busStep_sched (a b : Bool) : (busStep a b s).sched = s.sched := rfl
@[simp] theorem busStep_tick (a b : Bool) : (busStep a b s).tick = s.tick := rfl

@[simp] theorem freeBus_drvScl : (freeBus s).drvScl = s.drvScl := rfl
@[simp] theorem freeBus_drvSda : (freeBus s).drvSda = s.drvSda := rfl
@[simp] theorem freeBus_tb : (freeBus s).tb = s.tb := rfl
@[simp] theorem freeBus_len : (freeBus s).len = s.len := rfl
@[simp] theorem freeBus_rb : (freeBus s).rb = s.rb := rfl
@[simp] theorem freeBus_rxcnt : (freeBus s).rxcnt = s.rxcnt := rfl
@[simp] theorem freeBus_ph : (freeBus s).ph = s.ph := rfl
@[simp] theorem freeBus_u : (freeBus s).u = s.u := rfl
@[simp] theorem freeBus_k : (freeBus s).k = s.k := rfl
@[simp] theorem freeBus_i : (freeBus s).i = s.i := rfl
@[simp] theorem freeBus_j : (freeBus s).j = s.j := rfl
@[simp] theorem freeBus_sh : (freeBus s).sh = s.sh := rfl
@[simp] theorem freeBus_mode : (freeBus s).mode = s.mode := rfl
@[simp] theorem freeBus_nreq : (freeBus s).nreq = s.nreq := rfl
@[simp] theorem freeBus_ackf : (freeBus s).ackf = s.ackf := rfl
@[simp] theorem freeBus_lastok : (freeBus s).lastok = s.lastok := rfl
@[simp] theorem freeBus_extScl : (freeBus s).extScl = Config.freeExtScl s.tick := rfl
@[simp] theorem freeBus_extSda : (freeBus s).extSda = Config.freeExtSda s.tick := rfl
@[simp] theorem freeBus_cmds : (freeBus s).cmds = s.cmds := rfl
@[simp] theorem freeBus_rsp : (freeBus s).rsp = s.rsp := rfl
@[simp] theorem freeBus_cfg : (freeBus s).cfg = s.cfg := rfl
@[simp] theorem freeBus_sched : (freeBus s).sched = s.sched := rfl
@[simp] theorem freeBus_tick : (freeBus s).tick = s.tick + 1 := rfl

@[simp] theorem setDrive_scl_drvScl (d : Drive) : (setDrive .scl d s).drvScl = d := rfl
@[simp] theorem setDrive_scl_drvSda (d : Drive) : (setDrive .scl d s).drvSda = s.drvSda := rfl
@[simp] theorem setDrive_scl_tb (d : Drive) : (setDrive .scl d s).tb = s.tb := rfl
@[simp] theorem setDrive_scl_len (d : Drive) : (setDrive .scl d s).len = s.len := rfl
@[simp] theorem setDrive_scl_rb (d : Drive) : (setDrive .scl d s).rb = s.rb := rfl
@[simp] theorem setDrive_scl_rxcnt (d : Drive) : (setDrive .scl d s).rxcnt = s.rxcnt := rfl
@[simp] theorem setDrive_scl_ph (d : Drive) : (setDrive .scl d s).ph = s.ph := rfl
@[simp] theorem setDrive_scl_u (d : Drive) : (setDrive .scl d s).u = s.u := rfl
@[simp] theorem setDrive_scl_k (d : Drive) : (setDrive .scl d s).k = s.k := rfl
@[simp] theorem setDrive_scl_i (d : Drive) : (setDrive .scl d s).i = s.i := rfl
@[simp] theorem setDrive_scl_j (d : Drive) : (setDrive .scl d s).j = s.j := rfl
@[simp] theorem setDrive_scl_sh (d : Drive) : (setDrive .scl d s).sh = s.sh := rfl
@[simp] theorem setDrive_scl_mode (d : Drive) : (setDrive .scl d s).mode = s.mode := rfl
@[simp] theorem setDrive_scl_nreq (d : Drive) : (setDrive .scl d s).nreq = s.nreq := rfl
@[simp] theorem setDrive_scl_ackf (d : Drive) : (setDrive .scl d s).ackf = s.ackf := rfl
@[simp] theorem setDrive_scl_lastok (d : Drive) : (setDrive .scl d s).lastok = s.lastok := rfl
@[simp] theorem setDrive_scl_extScl (d : Drive) : (setDrive .scl d s).extScl = s.extScl := rfl
@[simp] theorem setDrive_scl_extSda (d : Drive) : (setDrive .scl d s).extSda = s.extSda := rfl
@[simp] theorem setDrive_scl_cmds (d : Drive) : (setDrive .scl d s).cmds = s.cmds := rfl
@[simp] theorem setDrive_scl_rsp (d : Drive) : (setDrive .scl d s).rsp = s.rsp := rfl
@[simp] theorem setDrive_scl_cfg (d : Drive) : (setDrive .scl d s).cfg = s.cfg := rfl
@[simp] theorem setDrive_scl_sched (d : Drive) : (setDrive .scl d s).sched = s.sched := rfl
@[simp] theorem setDrive_scl_tick (d : Drive) : (setDrive .scl d s).tick = s.tick := rfl

@[simp] theorem setDrive_sda_drvScl (d : Drive) : (setDrive .sda d s).drvScl = s.drvScl := rfl
@[simp] theorem setDrive_sda_drvSda (d : Drive) : (setDrive .sda d s).drvSda = d := rfl
@[simp] theorem setDrive_sda_tb (d : Drive) : (setDrive .sda d s).tb = s.tb := rfl
@[simp] theorem setDrive_sda_len (d : Drive) : (setDrive .sda d s).len = s.len := rfl
@[simp] theorem setDrive_sda_rb (d : Drive) : (setDrive .sda d s).rb = s.rb := rfl
@[simp] theorem setDrive_sda_rxcnt (d : Drive) : (setDrive .sda d s).rxcnt = s.rxcnt := rfl
@[simp] theorem setDrive_sda_ph (d : Drive) : (setDrive .sda d s).ph = s.ph := rfl
@[simp] theorem setDrive_sda_u (d : Drive) : (setDrive .sda d s).u = s.u := rfl
@[simp] theorem setDrive_sda_k (d : Drive) : (setDrive .sda d s).k = s.k := rfl
@[simp] theorem setDrive_sda_i (d : Drive) : (setDrive .sda d s).i = s.i := rfl
@[simp] theorem setDrive_sda_j (d : Drive) : (setDrive .sda d s).j = s.j := rfl
@[simp] theorem setDrive_sda_sh (d : Drive) : (setDrive .sda d s).sh = s.sh := rfl
@[simp] theorem setDrive_sda_mode (d : Drive) : (setDrive .sda d s).mode = s.mode := rfl
@[simp] theorem setDrive_sda_nreq (d : Drive) : (setDrive .sda d s).nreq = s.nreq := rfl
@[simp] theorem setDrive_sda_ackf (d : Drive) : (setDrive .sda d s).ackf = s.ackf := rfl
@[simp] theorem setDrive_sda_lastok (d : Drive) : (setDrive .sda d s).lastok = s.lastok := rfl
@[simp] theorem setDrive_sda_extScl (d : Drive) : (setDrive .sda d s).extScl = s.extScl := rfl
@[simp] theorem setDrive_sda_extSda (d : Drive) : (setDrive .sda d s).extSda = s.extSda := rfl
@[simp] theorem setDrive_sda_cmds (d : Drive) : (setDrive .sda d s).cmds = s.cmds := rfl
@[simp] theorem setDrive_sda_rsp (d : Drive) : (setDrive .sda d s).rsp = s.rsp := rfl
@[simp] theorem setDrive_sda_cfg (d : Drive) : (setDrive .sda d s).cfg = s.cfg := rfl
@[simp] theorem setDrive_sda_sched (d : Drive) : (setDrive .sda d s).sched = s.sched := rfl
@[simp] theorem setDrive_sda_tick (d : Drive) : (setDrive .sda d s).tick = s.tick := rfl

@[simp] theorem driveOf_scl : driveOf s .scl = s.drvScl := rfl
@[simp] theorem driveOf_sda : driveOf s .sda = s.drvSda := rfl
@[simp] theorem extOf_scl : extOf s .scl = s.extScl := rfl
@[simp] theorem extOf_sda : extOf s .sda = s.extSda := rfl

/-! ### The block as a whole -/

@[simp] theorem Block.reset_drvScl : Block.reset.drvScl = .released := rfl
@[simp] theorem Block.reset_drvSda : Block.reset.drvSda = .released := rfl
@[simp] theorem Block.reset_tb : Block.reset.tb = [] := rfl
@[simp] theorem Block.reset_len : Block.reset.len = 0 := rfl
@[simp] theorem Block.reset_rb : Block.reset.rb = [] := rfl
@[simp] theorem Block.reset_rxcnt : Block.reset.rxcnt = 0 := rfl
@[simp] theorem Block.reset_ph : Block.reset.ph = .idle := rfl
@[simp] theorem Block.reset_u : Block.reset.u = 0 := rfl
@[simp] theorem Block.reset_k : Block.reset.k = 0 := rfl
@[simp] theorem Block.reset_i : Block.reset.i = 0 := rfl
@[simp] theorem Block.reset_j : Block.reset.j = 0 := rfl
@[simp] theorem Block.reset_sh : Block.reset.sh = 0 := rfl
@[simp] theorem Block.reset_mode : Block.reset.mode = .w := rfl
@[simp] theorem Block.reset_nreq : Block.reset.nreq = 0 := rfl
@[simp] theorem Block.reset_ackf : Block.reset.ackf = false := rfl
@[simp] theorem Block.reset_lastok : Block.reset.lastok = false := rfl

@[simp] theorem resetBlock_toBlock : (resetBlock s).toBlock = Block.reset := rfl
@[simp] theorem resetBlock_rsp : (resetBlock s).rsp = none := rfl
@[simp] theorem resetBlock_extScl : (resetBlock s).extScl = s.extScl := rfl
@[simp] theorem resetBlock_extSda : (resetBlock s).extSda = s.extSda := rfl
@[simp] theorem resetBlock_cmds : (resetBlock s).cmds = s.cmds := rfl
@[simp] theorem resetBlock_cfg : (resetBlock s).cfg = s.cfg := rfl
@[simp] theorem resetBlock_sched : (resetBlock s).sched = s.sched := rfl
@[simp] theorem resetBlock_tick : (resetBlock s).tick = s.tick := rfl

@[simp] theorem clearRsp_toBlock : (clearRsp s).toBlock = s.toBlock := rfl
@[simp] theorem busStep_toBlock (a b : Bool) : (busStep a b s).toBlock = s.toBlock := rfl
@[simp] theorem freeBus_toBlock : (freeBus s).toBlock = s.toBlock := rfl
@[simp] theorem respond_toBlock (e r : Bool) (v : Byte) : (respond e r v s).toBlock = s.toBlock := rfl

end Machine
end Sys2Proof
end

