-- ==== Sys2Proof/Laws/Engine.lean ====
section
/-! SUPPORT. One equation per labelled step, each true by `rfl`; where a label stands; and all that an engine step can
do. -/

namespace Sys2Proof
namespace Machine

variable (s : State)

theorem runLabel_st0 : runLabel .st0 s = .next (advance (driveLow .sda s)) := rfl
theorem runLabel_st1 : runLabel .st1 s = .next (advance (delayStep .startSetup s)) := rfl
theorem runLabel_st2 : runLabel .st2 s = .next (advance (driveLow .scl s)) := rfl
theorem runLabel_st3 : runLabel .st3 s = .next (advance (delayStep .startHold s)) := rfl
theorem runLabel_st4 : runLabel .st4 s = loadByte 0 s := rfl
theorem runLabel_tx0 : runLabel .tx0 s = .next (advance (setSda (bitAt s.sh s.i) s)) := rfl
theorem runLabel_tx1 : runLabel .tx1 s = .next (advance (delayStep .txSetup s)) := rfl
theorem runLabel_tx2 : runLabel .tx2 s = .next (advance (release .scl s)) := rfl
theorem runLabel_tx3 : runLabel .tx3 s = .next (advance (delayStep .txHigh s)) := rfl
theorem runLabel_tx4 : runLabel .tx4 s = .next (advance (driveLow .scl s)) := rfl
theorem runLabel_tx5 : runLabel .tx5 s = .next (nextBit (delayStep .txLow s)) := rfl
theorem runLabel_tx6 : runLabel .tx6 s = .next (advance (release .sda s)) := rfl
theorem runLabel_tx7 : runLabel .tx7 s = .next (advance (release .scl s)) := rfl
theorem runLabel_tx8 : runLabel .tx8 s = .next (advance (delayStep .txAckSample s)) := rfl
theorem runLabel_ak0 : runLabel .ak0 s = .next (advance (driveLow .scl s)) := rfl
theorem runLabel_ak1 : runLabel .ak1 s = .next (advance (delayStep .txAckSettle s)) := rfl
theorem runLabel_ak2 : runLabel .ak2 s = dispatchAfterAck s := rfl
theorem runLabel_af0 : runLabel .af0 s = .next (takeAckFail s) := rfl
theorem runLabel_rx0 : runLabel .rx0 s = .next (advance (delayStep .rxLow s)) := rfl
theorem runLabel_rx1 : runLabel .rx1 s = .next (advance (release .scl s)) := rfl
theorem runLabel_rx4 : runLabel .rx4 s = .next (advance (delayStep .rxHigh s)) := rfl
theorem runLabel_rx5 : runLabel .rx5 s = .next (nextBit (driveLow .scl s)) := rfl
theorem runLabel_rx6 : runLabel .rx6 s = storeReceived s := rfl
theorem runLabel_rx7 : runLabel .rx7 s = .next (advance (delayStep .rxAckPre s)) := rfl
theorem runLabel_rx9 : runLabel .rx9 s = .next (advance (delayStep .rxAckSetup s)) := rfl
theorem runLabel_rx10 : runLabel .rx10 s = .next (advance (release .scl s)) := rfl
theorem runLabel_rx12 : runLabel .rx12 s = .next (advance (delayStep .rxAckHigh s)) := rfl
theorem runLabel_rx13 : runLabel .rx13 s = .next (advance (driveLow .scl s)) := rfl
theorem runLabel_rx14 : runLabel .rx14 s = .next (advance (delayStep .rxAckLow s)) := rfl
theorem runLabel_rx15 : runLabel .rx15 s = .next (advance (release .sda s)) := rfl
theorem runLabel_rx16 : runLabel .rx16 s = .next (advance (delayStep .rxAckFinal s)) := rfl
theorem runLabel_rx17 : runLabel .rx17 s = .next (nextReceived s) := rfl
theorem runLabel_sp0 : runLabel .sp0 s = .next (advance (driveLow .sda s)) := rfl
theorem runLabel_sp1 : runLabel .sp1 s = .next (advance (delayStep .stopSetup s)) := rfl
theorem runLabel_sp2 : runLabel .sp2 s = .next (advance (release .scl s)) := rfl
theorem runLabel_sp3 : runLabel .sp3 s = .next (advance (delayStep .stopHigh s)) := rfl
theorem runLabel_sp4 : runLabel .sp4 s = .next (advance (release .sda s)) := rfl
theorem runLabel_sp5 : runLabel .sp5 s = .next (advance (delayStep .stopIdle s)) := rfl
theorem runLabel_sp6 : runLabel .sp6 s = .next (takeStopDone s) := rfl

/-- `TX9` with `SDA` released: `ACKF` takes the level of `SDA` (R145). -/
theorem runLabel_tx9 (h : s.drvSda = .released) :
    runLabel .tx9 s = .next (takeAckSample (level s .sda) s) := by
  simp [runLabel, microOp, MicroOp.run, sample, h, conclude]

/-- `RX3` with `SDA` released: `SH[I]` takes the level of `SDA` (R153). -/
theorem runLabel_rx3 (h : s.drvSda = .released) :
    runLabel .rx3 s = .next (advance { s with sh := setBitAt s.sh s.i (level s .sda) }) := by
  simp [runLabel, microOp, MicroOp.run, sample, h, conclude]

/-- `RX2` with `SCL` released: on when the level is HIGH, held while it is LOW (R126, R153). -/
theorem runLabel_rx2 (h : s.drvScl = .released) :
    runLabel .rx2 s = .next (if level s .scl then advance s else s) := by
  by_cases hl : level s .scl <;> simp [runLabel, microOp, MicroOp.run, waitHigh, h, conclude, hl]

/-- `RX11` with `SCL` released: on when the level is HIGH, held while it is LOW (R126, R154). -/
theorem runLabel_rx11 (h : s.drvScl = .released) :
    runLabel .rx11 s = .next (if level s .scl then advance s else s) := by
  by_cases hl : level s .scl <;> simp [runLabel, microOp, MicroOp.run, waitHigh, h, conclude, hl]

/-- `RX8`: no line event for the last byte, `DL(SDA)` for the others (R154). -/
theorem runLabel_rx8 :
    runLabel .rx8 s = .next (advance (if lastByte s then s else driveLow .sda s)) := by
  by_cases h : lastByte s <;> simp [runLabel, microOp, MicroOp.run, h, conclude]

/-! ### The ends of steps, by case -/

theorem nextBit_last {s : State} (h : s.i = 0) : nextBit s = jump 6 s := if_pos h

theorem nextBit_more {s : State} (h : s.i ≠ 0) : nextBit s = jump 0 { s with i := s.i - 1 } := if_neg h

theorem takeAckSample_ack (s : State) : takeAckSample false s = enterPhase .ackOk { s with ackf := false } := rfl

theorem takeAckSample_nack (s : State) : takeAckSample true s = raiseAckFail { s with ackf := true } := rfl

/-- `TB[n]` exists for `n < 33`, and is loaded. -/
theorem loadByte_ok {s : State} {n : BitVec 6} (h : n.toNat < 33) :
    loadByte n s = .next (enterPhase .byteTransfer { s with k := n, sh := Memory.read s.tb n.toNat, i := 7 }) := by
  simp [loadByte, readTb, h]

theorem dispatchAfterAck_moreBytes {s : State} (hm : s.mode = .w) (h : s.k.toNat + 1 < s.len.toNat) :
    dispatchAfterAck s = loadByte (s.k + 1) s := by simp [dispatchAfterAck, hm, h]

theorem dispatchAfterAck_lastByte {s : State} (hm : s.mode = .w) (h : ¬ s.k.toNat + 1 < s.len.toNat) :
    dispatchAfterAck s = .next (enterPhase .stop s) := by simp [dispatchAfterAck, hm, h]

theorem dispatchAfterAck_readNone {s : State} (hm : s.mode = .r) (h : s.nreq = 0) :
    dispatchAfterAck s = .next (enterPhase .stop s) := by simp [dispatchAfterAck, hm, h]

theorem dispatchAfterAck_read {s : State} (hm : s.mode = .r) (h : s.nreq ≠ 0) :
    dispatchAfterAck s = .next (enterPhase .byteReceive { s with j := 0, i := 7 }) := by
  simp only [dispatchAfterAck, hm]
  exact if_neg h

theorem storeReceived_ok {s : State} (h : s.j.toNat < 255) :
    storeReceived s = .next (advance (writeRb s.j.toNat s.sh s)) := if_pos h

theorem nextReceived_more {s : State} (h : s.j + 1 < s.nreq) :
    nextReceived s = jump 0 { s with j := s.j + 1, i := 7 } := if_pos h

theorem nextReceived_last {s : State} (h : ¬ s.j + 1 < s.nreq) :
    nextReceived s = enterPhase .stop { s with j := s.j + 1 } := if_neg h

/-- A labelled step that gives a next state has completed its micro-operation, or is held and changes nothing. -/
theorem runLabel_cases {l : Label} {s t : State} (h : runLabel l s = .next t) :
    (∃ m b, (microOp l s).run s = .done m b ∧ conclude l b m = .next t) ∨ ((microOp l s).run s = .held ∧ t = s) := by
  unfold runLabel at h
  split at h
  · rename_i m b hm
    exact .inl ⟨m, b, hm, h⟩
  · rename_i hh
    injection h with h
    exact .inr ⟨hh, h.symm⟩
  · cases h

/-- All that a completed micro-operation does to the state: one line's drive mode, or nothing (R121 to R127). -/
theorem run_done_cases {o : MicroOp} {s m : State} {b : Bool} (h : o.run s = .done m b) :
    (∃ l d, m = setDrive l d s ∧ o.lineEvent = some (l, d)) ∨ (m = s ∧ o.lineEvent = none) := by
  cases o with
  | dl l => injection h with h; exact .inl ⟨l, _, h.symm, rfl⟩
  | rl l => injection h with h; exact .inl ⟨l, _, h.symm, rfl⟩
  | setSda b => injection h with h; exact .inl ⟨.sda, _, h.symm, rfl⟩
  | sample l =>
    simp only [MicroOp.run, sample] at h
    split at h
    · injection h with h; exact .inr ⟨h.symm, rfl⟩
    · cases h
  | waitH l =>
    simp only [MicroOp.run, waitHigh] at h
    split at h
    · split at h
      · injection h with h; exact .inr ⟨h.symm, rfl⟩
      · cases h
    · cases h
  | dly t => injection h with h; exact .inr ⟨h.symm, rfl⟩
  | book => injection h with h; exact .inr ⟨h.symm, rfl⟩

/-- A label stands at its position. -/
theorem labelAt_home (l : Label) : labelAt l.home.1 l.home.2 = some l := by cases l <;> rfl

/-- And nowhere else: `upc` names `l` exactly at the position of `l` (R36). -/
theorem labelAt_iff {p : Phase} {u : BitVec 5} {l : Label} : labelAt p u = some l ↔ p = l.home.1 ∧ u = l.home.2 := by
  constructor
  · intro h
    have key : ∀ v : BitVec 5, (labelAt p v).all (fun m => m.home = (p, v)) = true := by cases p <;> decide
    have := key u
    simp only [h, Option.all_some, decide_eq_true_eq] at this
    simp [this]
  · rintro ⟨rfl, rfl⟩
    exact labelAt_home l

/-- An engine step that gives a next state ran the labelled step that `upc` names. -/
theorem engineStep_cases {s t : State} (h : engineStep s = .next t) :
    ∃ l, labelAt s.ph s.u = some l ∧ runLabel l s = .next t := by
  unfold engineStep at h
  split at h
  · rename_i l hl
    exact ⟨l, hl, h⟩
  · cases h

/-- `labelAt` in `IDLE` names nothing. -/
@[simp] theorem labelAt_idle (u : BitVec 5) : labelAt .idle u = none := by simp [labelAt, stepList]

end Machine
end Sys2Proof
end

