-- ==== Sys2Proof/Laws/Exec.lean ====
section
/-! SUPPORT. The gate that every command passes, and all that a command can do. -/

namespace Sys2Proof
namespace Machine

@[simp] theorem whenIdle_idle {s : State} (h : s.ph = .idle) (k : Host.Outcome State Fault Refusal) :
    whenIdle s k = k := by simp [whenIdle, h]

@[simp] theorem whenIdle_busy {s : State} (h : s.ph ≠ .idle) (k : Host.Outcome State Fault Refusal) :
    whenIdle s k = .refused .hostBusy := by simp [whenIdle, h]

/-- A command that gives a next state was run in `IDLE`. -/
theorem whenIdle_next {s t : State} {k : Host.Outcome State Fault Refusal} (h : whenIdle s k = .next t) :
    s.ph = .idle ∧ k = .next t := by
  unfold whenIdle at h
  split at h
  · exact ⟨‹_›, h⟩
  · cases h

/-- All that `APPEND` can do (R184 to R186). -/
theorem execAppend_cases {b : Byte} {s t : State} (h : execAppend b s = .next t) :
    s.ph = .idle ∧
      ((s.len = 0 ∧ t = raiseCmdError .noAddress s) ∨
       (s.len ≠ 0 ∧ s.len.toNat < s.cfg.capacity ∧
          t = respond false true 0x00 (setLen (s.len + 1) (writeTb s.len.toNat b s))) ∨
       (s.len ≠ 0 ∧ ¬ s.len.toNat < s.cfg.capacity ∧ t = respond false true 0x00 s)) := by
  obtain ⟨hi, h⟩ := whenIdle_next h
  refine ⟨hi, ?_⟩
  split at h
  · injection h with h; exact .inl ⟨‹_›, h.symm⟩
  · split at h
    · injection h with h; exact .inr (.inl ⟨‹_›, ‹_›, h.symm⟩)
    · injection h with h; exact .inr (.inr ⟨‹_›, ‹_›, h.symm⟩)

/-- All that `EXECW` can do (R188, R189). -/
theorem execExecw_cases {s t : State} (h : execExecw s = .next t) :
    s.ph = .idle ∧
      ((s.len = 0 ∧ t = raiseCmdError .noAddress s) ∨
       (s.len ≠ 0 ∧ s.cfg.variant = .rw ∧
          t = startTransaction .w (writeTb 0 (withDirWrite (Memory.read s.tb 0)) s)) ∨
       (s.len ≠ 0 ∧ s.cfg.variant = .wo ∧ t = startTransaction .w s)) := by
  obtain ⟨hi, h⟩ := whenIdle_next h
  refine ⟨hi, ?_⟩
  split at h
  · injection h with h; exact .inl ⟨‹_›, h.symm⟩
  · split at h
    · injection h with h; exact .inr (.inl ⟨‹_›, ‹_›, h.symm⟩)
    · injection h with h; exact .inr (.inr ⟨‹_›, ‹_›, h.symm⟩)

/-- All that `EXECR` can do (R191). -/
theorem execExecr_cases {n : BitVec 8} {s t : State} (h : execExecr n s = .next t) :
    s.ph = .idle ∧
      ((s.cfg.variant = .wo ∧ t = raiseCmdError .illegalOpcode s) ∨
       (s.cfg.variant = .rw ∧ s.len = 0 ∧ t = raiseCmdError .noAddress s) ∨
       (s.cfg.variant = .rw ∧ s.len ≠ 0 ∧
          t = startTransaction .r (setNreq n (writeTb 0 (withDirRead (Memory.read s.tb 0)) s)))) := by
  obtain ⟨hi, h⟩ := whenIdle_next h
  refine ⟨hi, ?_⟩
  split at h
  · injection h with h; exact .inl ⟨‹_›, h.symm⟩
  · split at h
    · injection h with h; exact .inr (.inl ⟨‹_›, ‹_›, h.symm⟩)
    · injection h with h; exact .inr (.inr ⟨‹_›, ‹_›, h.symm⟩)

/-- All that `RDRX` can do (R194). -/
theorem execRdrx_cases {n : BitVec 8} {s t : State} (h : execRdrx n s = .next t) :
    s.ph = .idle ∧
      ((s.cfg.variant = .wo ∧ t = raiseCmdError .illegalOpcode s) ∨
       (s.cfg.variant = .rw ∧ s.rxcnt ≤ n ∧ t = raiseCmdError .rxIndex s) ∨
       (s.cfg.variant = .rw ∧ ¬ s.rxcnt ≤ n ∧ t = respond false true (Memory.read s.rb n.toNat) s)) := by
  obtain ⟨hi, h⟩ := whenIdle_next h
  refine ⟨hi, ?_⟩
  split at h
  · injection h with h; exact .inl ⟨‹_›, h.symm⟩
  · split at h
    · injection h with h; exact .inr (.inl ⟨‹_›, ‹_›, h.symm⟩)
    · injection h with h; exact .inr (.inr ⟨‹_›, ‹_›, h.symm⟩)

end Machine
end Sys2Proof
end

