-- ==== Sys2Proof/Laws/Memory.lean ====
section
/-! SUPPORT. The byte spaces: a read after a write, and the canonical form that every write keeps. -/

namespace Sys2Proof
namespace Machine
namespace Memory

@[simp] theorem read_nil (a : Nat) : read [] a = unlisted := rfl

theorem read_erase_same (m : Memory) (a : Nat) : read (erase m a) a = unlisted := by
  induction m with
  | nil => rfl
  | cons c m ih =>
    by_cases h : c.1 = a
    · simpa [erase, List.filter_cons, h] using ih
    · simpa [erase, List.filter_cons, h, read] using ih

theorem read_erase_other (m : Memory) {a b : Nat} (hb : b ≠ a) : read (erase m a) b = read m b := by
  induction m with
  | nil => rfl
  | cons c m ih =>
    by_cases h : c.1 = a
    · have : c.1 ≠ b := by omega
      simpa [erase, List.filter_cons, h, read, hb.symm] using ih
    · by_cases h' : c.1 = b
      · simp [erase, read, h', hb]
      · simpa [erase, List.filter_cons, h, read, h'] using ih

theorem read_insert_same {m : Memory} {a : Nat} (v : Byte) (h : ∀ c ∈ m, c.1 ≠ a) : read (insert m a v) a = v := by
  induction m with
  | nil => simp [insert, read]
  | cons c m ih =>
    have hc : c.1 ≠ a := h c (by simp)
    by_cases hlt : a < c.1
    · simp [insert, hlt, read]
    · simp [insert, hlt, read, hc, ih fun d hd => h d (by simp [hd])]

theorem read_insert_other (m : Memory) {a b : Nat} (v : Byte) (hb : b ≠ a) : read (insert m a v) b = read m b := by
  induction m with
  | nil => simp [insert, read, hb.symm]
  | cons c m ih =>
    by_cases hlt : a < c.1
    · simp [insert, hlt, read, hb.symm]
    · simp [insert, hlt, read, ih]

theorem mem_erase {m : Memory} {a : Nat} {c : Host.Cell} : c ∈ erase m a ↔ c ∈ m ∧ c.1 ≠ a := by
  simp [erase]

/-- A read after a write to the same index gives the value written. -/
@[simp] theorem read_write_same (m : Memory) (a : Nat) (v : Byte) : read (write m a v) a = v := by
  unfold write
  split
  · rename_i h; rw [read_erase_same, h]
  · exact read_insert_same v fun c hc => (mem_erase.1 hc).2

/-- A write leaves every other index alone. -/
theorem read_write_other (m : Memory) {a b : Nat} (v : Byte) (h : b ≠ a) : read (write m a v) b = read m b := by
  unfold write
  split
  · exact read_erase_other m h
  · rw [read_insert_other _ v h, read_erase_other m h]

theorem mem_insert {m : Memory} {a : Nat} {v : Byte} {c : Host.Cell} : c ∈ insert m a v ↔ c = (a, v) ∨ c ∈ m := by
  induction m with
  | nil => simp [insert]
  | cons d m ih =>
    by_cases h : a < d.1
    · simp [insert, h]
    · simp [insert, h, ih]; tauto

theorem rising_cons {c : Host.Cell} {m : Memory} : rising (c :: m) = true ↔ (∀ d ∈ m, c.1 < d.1) ∧ rising m = true := by
  simp [rising]

theorem rising_erase {m : Memory} (a : Nat) (h : rising m = true) : rising (erase m a) = true := by
  induction m with
  | nil => rfl
  | cons c m ih =>
    obtain ⟨hc, hm⟩ := rising_cons.1 h
    by_cases hca : c.1 = a
    · simpa [erase, List.filter_cons, hca] using ih hm
    · have : erase (c :: m) a = c :: erase m a := by simp [erase, hca]
      rw [this, rising_cons]
      exact ⟨fun d hd => hc d (mem_erase.1 hd).1, ih hm⟩

theorem rising_insert {m : Memory} {a : Nat} {v : Byte} (h : rising m = true) (ha : ∀ c ∈ m, c.1 ≠ a) :
    rising (insert m a v) = true := by
  induction m with
  | nil => simp [insert, rising]
  | cons c m ih =>
    obtain ⟨hc, hm⟩ := rising_cons.1 h
    have hca := ha c (by simp)
    by_cases hlt : a < c.1
    · simp only [insert, hlt, if_true]
      rw [rising_cons]
      refine ⟨fun d hd => ?_, h⟩
      rcases List.mem_cons.1 hd with rfl | hd
      · exact hlt
      · exact lt_trans hlt (hc d hd)
    · simp only [insert, hlt, if_false]
      rw [rising_cons]
      refine ⟨fun d hd => ?_, ih hm fun d hd => ha d (by simp [hd])⟩
      rcases mem_insert.1 hd with rfl | hd
      · show c.1 < a
        omega
      · exact hc d hd

theorem wf_iff {size : Nat} {m : Memory} :
    wf size m = true ↔ rising m = true ∧ ∀ c ∈ m, c.1 < size ∧ c.2 ≠ unlisted := by
  simp [wf]

@[simp] theorem wf_nil (size : Nat) : wf size [] = true := rfl

/-- Every write below the size keeps the canonical form. -/
theorem wf_write {size : Nat} {m : Memory} {a : Nat} (v : Byte) (h : wf size m = true) (ha : a < size) :
    wf size (write m a v) = true := by
  obtain ⟨hr, hm⟩ := wf_iff.1 h
  rw [wf_iff]
  unfold write
  split
  · exact ⟨rising_erase a hr, fun c hc => hm c (mem_erase.1 hc).1⟩
  · rename_i hv
    refine ⟨rising_insert (rising_erase a hr) fun c hc => (mem_erase.1 hc).2, fun c hc => ?_⟩
    rcases mem_insert.1 hc with rfl | hc
    · exact ⟨ha, hv⟩
    · exact hm c (mem_erase.1 hc).1

theorem read_eq_unlisted_of_lt {c : Host.Cell} {m : Memory} (h : rising (c :: m) = true) {a : Nat} (ha : a ≤ c.1) :
    read m a = unlisted := by
  induction m with
  | nil => rfl
  | cons d m ih =>
    obtain ⟨hc, hm⟩ := rising_cons.1 h
    have hd : c.1 < d.1 := hc d (by simp)
    have hne : d.1 ≠ a := by omega
    simp only [read, hne, if_false]
    exact ih (rising_cons.2 ⟨fun e he => hc e (by simp [he]), (rising_cons.1 hm).2⟩)

/-- Two spaces in canonical form that read alike are the same data. -/
theorem ext_of_read {size : Nat} {m n : Memory} (hm : wf size m = true) (hn : wf size n = true)
    (h : ∀ a, read m a = read n a) : m = n := by
  induction m generalizing n with
  | nil =>
    cases n with
    | nil => rfl
    | cons d n =>
      have := h d.1
      simp [read] at this
      exact absurd this.symm ((wf_iff.1 hn).2 d (by simp)).2
  | cons c m ih =>
    cases n with
    | nil =>
      have := h c.1
      simp [read] at this
      exact absurd this ((wf_iff.1 hm).2 c (by simp)).2
    | cons d n =>
      obtain ⟨hrm, hvm⟩ := wf_iff.1 hm
      obtain ⟨hrn, hvn⟩ := wf_iff.1 hn
      have hcd : c.1 = d.1 := by
        rcases Nat.lt_trichotomy c.1 d.1 with hlt | heq | hgt
        · have h1 := h c.1
          have hne : d.1 ≠ c.1 := by omega
          simp only [read, if_true, hne, if_false] at h1
          rw [read_eq_unlisted_of_lt hrn (by omega)] at h1
          exact absurd h1 (hvm c (by simp)).2
        · exact heq
        · have h1 := h d.1
          have hne : c.1 ≠ d.1 := by omega
          simp only [read, if_true, hne, if_false] at h1
          rw [read_eq_unlisted_of_lt hrm (by omega)] at h1
          exact absurd h1.symm (hvn d (by simp)).2
      have hv : c.2 = d.2 := by
        have h1 := h c.1
        simpa [read, hcd] using h1
      have htl : m = n := by
        refine ih (wf_iff.2 ⟨(rising_cons.1 hrm).2, fun e he => hvm e (by simp [he])⟩)
          (wf_iff.2 ⟨(rising_cons.1 hrn).2, fun e he => hvn e (by simp [he])⟩) fun a => ?_
        by_cases ha : c.1 = a
        · rw [read_eq_unlisted_of_lt hrm (by omega), read_eq_unlisted_of_lt hrn (by omega)]
        · have h1 := h a
          simpa [read, ha, hcd ▸ ha] using h1
      rw [htl, Prod.ext hcd hv]

end Memory

theorem readTb_eq {s : State} {n : Nat} (h : n < 33) : readTb s n = some (Memory.read s.tb n) := by
  simp [readTb, h]

theorem readRb_eq {s : State} {n : Nat} (h : n < 255) : readRb s n = some (Memory.read s.rb n) := by
  simp [readRb, h]

end Machine
end Sys2Proof
end

