-- ==== Sys2Proof/Laws/PerInstr.lean ====
section
/-! SUPPORT. What holds of each command as syntax: its word is the one that its row of the opcode map matches (R98). -/

namespace Sys2Proof
namespace Laws
namespace EncodingRow

/-- The encoding of `i` is matched by the row of the opcode map that bears its name, and by no other row. -/
def Statement (i : Instr) : Prop :=
  (opcodeTable.filter fun r => encode i &&& r.mask = r.bits).map (·.name) = [i.mnemonic]

theorem init : Statement .init := by
  unfold Statement; decide

theorem setaddr (a7 : BitVec 7) : Statement (.setaddr a7) := by
  unfold Statement; revert a7; decide +kernel

theorem append (b8 : Byte) : Statement (.append b8) := by
  unfold Statement; revert b8; decide +kernel

theorem execw : Statement .execw := by
  unfold Statement; decide

theorem execr (n8 : BitVec 8) : Statement (.execr n8) := by
  unfold Statement; revert n8; decide +kernel

theorem rdrx (n8 : BitVec 8) : Statement (.rdrx n8) := by
  unfold Statement; revert n8; decide +kernel

theorem rdstat : Statement .rdstat := by
  unfold Statement; decide

end EncodingRow
end Laws
end Sys2Proof
end

