-- ==== Sys2Proof/Laws/Step.lean ====
section
/-! SUPPORT. All that one step of the machine can be: a step of `BUS`, a reset cycle, or a turn of the block's agent. -/

namespace Sys2Proof
namespace Machine

theorem step_eq_turn (s : State) : step s = turn s := rfl

/-- A step is a step of `BUS`, a reset cycle, or the turn of the block's agent. -/
theorem step_shape (s : State) :
    (∃ a b es, s.sched = .bus a b :: es ∧ step s = .next (busStep a b (clearRsp { s with sched := es }))) ∨
    (∃ es, s.sched = .rst :: es ∧ step s = .next (resetBlock { s with sched := es })) ∨
    (∃ g, grant s = some g ∧ step s = blockStep g) := by
  rcases hs : s.sched with _ | ⟨e, es⟩
  · exact .inr (.inr ⟨freeBus (clearRsp s), by simp [grant, hs], by simp [step, turn, hs]⟩)
  · cases e with
    | bus a b => exact .inl ⟨a, b, es, rfl, by simp [step, turn, hs]⟩
    | rst => exact .inr (.inl ⟨es, rfl, by simp [step, turn, hs]⟩)
    | block =>
      exact .inr (.inr ⟨clearRsp { s with sched := es }, by simp [grant, hs], by simp [step, turn, hs]⟩)

/-- The step at a turn of the block's agent. -/
theorem step_of_grant {s g : State} (h : grant s = some g) : step s = blockStep g := by
  rcases step_shape s with ⟨a, b, es, hs, -⟩ | ⟨es, hs, -⟩ | ⟨g', hg, he⟩
  · simp [grant, hs] at h
  · simp [grant, hs] at h
  · rw [h] at hg; cases hg; exact he

/-- What the block's agent finds at its turn: the block as it was, the response port empty, the two pulls perhaps
changed. -/
theorem grant_cases {s g : State} (h : grant s = some g) :
    (s.sched = [] ∧ g = freeBus (clearRsp s)) ∨ (∃ es, s.sched = .block :: es ∧ g = clearRsp { s with sched := es }) := by
  rcases hs : s.sched with _ | ⟨e, es⟩
  · simp [grant, hs] at h; exact .inl ⟨rfl, h.symm⟩
  · cases e with
    | bus a b => simp [grant, hs] at h
    | rst => simp [grant, hs] at h
    | block => simp [grant, hs] at h; exact .inr ⟨es, rfl, h.symm⟩

theorem blockStep_idle {s : State} (h : s.ph = .idle) : blockStep s = hostStep s := by simp [blockStep, h]

theorem blockStep_busy {s : State} (h : s.ph ≠ .idle) : blockStep s = engineStep s := by simp [blockStep, h]

/-- With a word that decodes offered in `IDLE`, the host step runs the command. -/
theorem hostStep_of_decode {s : State} {w : Word} {ws : List Word} {i : Instr} (hc : s.cmds = w :: ws)
    (hd : decode s.cfg.variant w = .ok i) : hostStep s = exec i { s with cmds := ws } := by
  simp [hostStep, acceptWord, hc, hd]

/-- With no word offered the block stays as it is. -/
theorem hostStep_nil {s : State} (hc : s.cmds = []) : hostStep s = .next s := by simp [hostStep, hc]

/-- With a word that fails decoding offered, the host step is a command error. -/
theorem hostStep_of_err {s : State} {w : Word} {ws : List Word} {e : CmdError} (hc : s.cmds = w :: ws)
    (hd : decode s.cfg.variant w = .err e) : hostStep s = .next (raiseCmdError e { s with cmds := ws }) := by
  simp [hostStep, acceptWord, hc, hd]

end Machine
end Sys2Proof
end

