-- ==== Sys2Proof/Laws/Run.lean ====
section
/-! SUPPORT. Runs and traces in pieces. -/

namespace Sys2Proof
namespace Machine

@[simp] theorem runSteps_zero (s : State) : runSteps 0 s = .next s := rfl

theorem runSteps_succ {s t : State} (n : Nat) (h : step s = .next t) : runSteps (n + 1) s = runSteps n t := by
  simp [runSteps, h]

/-- A run of `m + n` steps is a run of `m` and then one of `n`. -/
theorem runSteps_add {s t : State} {m : Nat} (n : Nat) (h : runSteps m s = .next t) :
    runSteps (m + n) s = runSteps n t := by
  induction m generalizing s with
  | zero => simp [runSteps] at h; simp [h]
  | succ m ih =>
    rw [Nat.add_right_comm]
    cases hs : step s with
    | next u => rw [runSteps_succ _ hs] at h ⊢; exact ih h
    | fault f => simp [runSteps, hs] at h
    | refused r => simp [runSteps, hs] at h

@[simp] theorem along_zero {α : Type} (f : State → List α) (s : State) : along f 0 s = [] := rfl

theorem along_succ {α : Type} (f : State → List α) {s t : State} (n : Nat) (h : step s = .next t) :
    along f (n + 1) s = f s ++ along f n t := by
  simp [along, h]

/-- What is collected along `m + n` steps is that of the first `m` and then that of the next `n`. -/
theorem along_add {α : Type} (f : State → List α) {s t : State} {m : Nat} (n : Nat) (h : runSteps m s = .next t) :
    along f (m + n) s = along f m s ++ along f n t := by
  induction m generalizing s with
  | zero => simp [runSteps] at h; simp [h]
  | succ m ih =>
    rw [Nat.add_right_comm]
    cases hs : step s with
    | next u =>
      rw [runSteps_succ _ hs] at h
      rw [along_succ f _ hs, along_succ f _ hs, ih h, List.append_assoc]
    | fault f => simp [runSteps, hs] at h
    | refused r => simp [runSteps, hs] at h

@[simp] theorem opTrace_zero (s : State) : opTrace 0 s = [] := rfl

theorem opTrace_succ {s t : State} (n : Nat) (h : step s = .next t) :
    opTrace (n + 1) s = (completedOp s).toList ++ opTrace n t := along_succ _ n h

/-- The trace of `m + n` steps is that of the first `m` and then that of the next `n`. -/
theorem opTrace_add {s t : State} {m : Nat} (n : Nat) (h : runSteps m s = .next t) :
    opTrace (m + n) s = opTrace m s ++ opTrace n t := along_add _ n h

/-! ### The end of a transaction -/

theorem TransactionEnd.here {t : State} (h : t.ph = .idle) : TransactionEnd 0 t t :=
  ⟨rfl, h, fun _ _ hm => absurd hm (Nat.not_lt_zero _)⟩

/-- A transaction that still runs after one more step ends when it ends from there. -/
theorem TransactionEnd.step {s u t : State} {n : Nat} (hp : s.ph ≠ .idle) (hs : Machine.step s = .next u)
    (h : TransactionEnd n u t) : TransactionEnd (n + 1) s t := by
  refine ⟨by rw [runSteps_succ _ hs]; exact h.ran, h.idle, ?_⟩
  intro m v hm hv
  cases m with
  | zero => cases hv; exact hp
  | succ m => rw [runSteps_succ _ hs] at hv; exact h.busy m v (by omega) hv

/-- The end of a transaction that has begun, one step in. -/
theorem TransactionEnd.tail {s u t : State} {n : Nat} (hs : Machine.step s = .next u)
    (h : TransactionEnd (n + 1) s t) : TransactionEnd n u t := by
  refine ⟨by rw [← runSteps_succ _ hs]; exact h.ran, h.idle, ?_⟩
  intro m v hm hv
  exact h.busy (m + 1) v (by omega) (by rw [runSteps_succ _ hs]; exact hv)

/-- A transaction ends at one step, in one state. -/
theorem TransactionEnd.unique {s t u : State} {m n : Nat} (h : TransactionEnd m s t) (h' : TransactionEnd n s u) :
    m = n ∧ t = u := by
  have hmn : m = n := by
    rcases Nat.lt_trichotomy m n with hlt | heq | hgt
    · exact absurd h.idle (h'.busy m t hlt h.ran)
    · exact heq
    · exact absurd h'.idle (h.busy n u hgt h'.ran)
  subst hmn
  have := h.ran.symm.trans h'.ran
  injection this with this
  exact ⟨rfl, this⟩

end Machine
end Sys2Proof
end

