-- ==== Sys2Proof/Laws/Safety.lean ====
section
/-! SUPPORT. What the invariant says at a labelled step and in `IDLE`. -/

namespace Sys2Proof
namespace Machine

variable {s : State} {l : Label}

/-- The drive mode of `SCL` at a labelled step (R160). -/
theorem Inv.drvScl_at (h : Inv s) (hl : labelAt s.ph s.u = some l) : s.drvScl = (drivesAt l s).1 := by
  have hd := h.drives
  rw [drivesOk, hl] at hd
  exact of_decide_eq_true (Bool.and_eq_true_iff.1 hd).1

/-- The drive mode of `SDA` at a labelled step where R160 fixes it. -/
theorem Inv.drvSda_at {d : Drive} (h : Inv s) (hl : labelAt s.ph s.u = some l) (hd : (drivesAt l s).2 = some d) :
    s.drvSda = d := by
  have hh := h.drives
  rw [drivesOk, hl] at hh
  have h2 := (Bool.and_eq_true_iff.1 hh).2
  rw [hd] at h2
  exact of_decide_eq_true h2

/-- In `IDLE` both lines are released (R43 item 2). -/
theorem Inv.released_idle (h : Inv s) (hp : s.ph = .idle) : s.drvScl = .released ∧ s.drvSda = .released := by
  have hd := h.drives
  rw [drivesOk, hp, labelAt_idle] at hd
  exact ⟨of_decide_eq_true (Bool.and_eq_true_iff.1 hd).1, of_decide_eq_true (Bool.and_eq_true_iff.1 hd).2⟩

/-- Outside `IDLE` the position names a labelled step (R36). -/
theorem Inv.label (h : Inv s) (hp : s.ph ≠ .idle) : ∃ m, labelAt s.ph s.u = some m := by
  rcases h.position with hi | hs
  · exact absurd hi hp
  · exact Option.isSome_iff_exists.1 hs

end Machine
end Sys2Proof
end

