-- ==== Sys2Proof/Laws/Wire.lean ====
section
/-! SUPPORT. What a step of `BUS` adds to a run (nothing of the block's), the next turn of the block's agent under a
schedule without `rst`, and what the observer makes of one look. -/

namespace Sys2Proof
namespace Machine

/-! ### Steps that are not turns of the block's agent collect nothing -/

theorem completedOp_none {s : State} (h : grant s = none) : completedOp s = none := by simp [completedOp, h]

theorem atLabel_none {α : Type} {s : State} (l : Label) (f : State → α) (h : grant s = none) : atLabel l f s = [] := by
  simp [atLabel, h]

/-- At a turn the micro-operation is that of the state the turn finds. -/
theorem atLabel_turn {α : Type} {s g : State} (l : Label) (f : State → α) (h : grant s = some g) :
    atLabel l f s = if labelAt g.ph g.u = some l then [f g] else [] := by simp [atLabel, h]

/-- Under a schedule without `rst` the block's agent has a turn, after steps of `BUS` alone, which leave the block as it
is and collect nothing. -/
theorem exists_turn {s : State} (h : .rst ∉ s.sched) :
    ∃ m u g, runSteps m s = .next u ∧ grant u = some g ∧ .rst ∉ g.sched ∧
      g = { s with extScl := g.extScl, extSda := g.extSda, rsp := none, sched := g.sched, tick := g.tick } ∧
      (∀ {α : Type} (f : State → List α), (∀ v, grant v = none → f v = []) → along f m s = []) ∧
      ∀ k v, k ≤ m → runSteps k s = .next v → v.toBlock = s.toBlock := by
  generalize hs : s.sched = es at h
  induction es generalizing s with
  | nil =>
    refine ⟨0, s, freeBus (clearRsp s), rfl, by simp [grant, hs], by simp [hs], rfl, fun _ _ => rfl, ?_⟩
    intro k v hk hv
    obtain rfl : k = 0 := by omega
    cases hv; rfl
  | cons e es ih =>
    cases e with
    | rst => simp at h
    | block =>
      refine ⟨0, s, clearRsp { s with sched := es }, rfl, by simp [grant, hs], by simpa using h, rfl, fun _ _ => rfl, ?_⟩
      intro k v hk hv
      obtain rfl : k = 0 := by omega
      cases hv; rfl
    | bus a b =>
      have hst : step s = .next (busStep a b (clearRsp { s with sched := es })) := by simp [step, turn, hs]
      obtain ⟨m, u, g, hr, hg, hn, he, hf, hb⟩ :=
        ih (s := busStep a b (clearRsp { s with sched := es })) rfl (by simpa using h)
      refine ⟨m + 1, u, g, by rw [runSteps_succ _ hst]; exact hr, hg, hn, he.trans rfl, ?_, ?_⟩
      · intro α f hf0
        rw [along_succ f _ hst, hf0 s (by simp [grant, hs]), hf f hf0]; rfl
      · intro k v hk hv
        cases k with
        | zero => cases hv; rfl
        | succ k =>
          rw [runSteps_succ _ hst] at hv
          exact (hb k v (by omega) hv).trans rfl

/-! ### The observer -/

variable {o : Observer} {q : Levels}

/-- Levels that have not changed tell the observer nothing. -/
theorem Observer.look_same (h : o.last = q) : o.look q = o := by
  subst h
  obtain ⟨⟨_ | _, _ | _⟩, _, _, _, _⟩ := o <;> rfl

/-- A change of `SDA` alone under a LOW clock tells it nothing. -/
theorem Observer.look_low (h : o.last.scl = false) (hq : q.scl = false) : o.look q = { o with last := q } := by
  simp [Observer.look, Levels.isStart, Levels.isStop, Levels.isRise, Levels.isFall, h, hq]

theorem Observer.look_rise (h : o.last.scl = false) (hq : q.scl = true) :
    o.look q = Observer.takeBit q.sda { o with last := q, inPulse := true } := by
  simp [Observer.look, Levels.isStart, Levels.isStop, Levels.isRise, h, hq]

theorem Observer.look_fall (h : o.last.scl = true) (hq : q.scl = false) :
    o.look q = { o with last := q, inPulse := false, pulses := if o.inPulse then o.pulses + 1 else o.pulses } := by
  simp [Observer.look, Levels.isStart, Levels.isStop, Levels.isRise, Levels.isFall, h, hq]

theorem Observer.look_start (h : o.last = ⟨true, true⟩) (hq : q = ⟨true, false⟩) :
    o.look q = { o with last := q, bits := [], seen := o.seen ++ [.start] } := by
  simp [Observer.look, Levels.isStart, h, hq]

theorem Observer.look_stop (h : o.last = ⟨true, false⟩) (hq : q = ⟨true, true⟩) :
    o.look q = { o with last := q, bits := [], seen := o.seen ++ [.stop] } := by
  simp [Observer.look, Levels.isStart, Levels.isStop, h, hq]

/-- A bit that is not the ninth. -/
theorem Observer.takeBit_more (b : Bool) (h : o.bits.length ≠ 8) : Observer.takeBit b o = { o with bits := o.bits ++ [b] } :=
  if_neg h

/-- The ninth bit completes a byte transfer. -/
theorem Observer.takeBit_ninth (b : Bool) (h : o.bits.length = 8) :
    Observer.takeBit b o = { o with bits := [], seen := o.seen ++ [.byteTransfer (byteOfBits o.bits) b] } := if_pos h

end Machine
end Sys2Proof
end

