-- ==== Sys2Proof/Tests/Slice0.lean ====
section
/-! SUPPORT. The model's own tests. Expected values are written out from the spec: the words from the opcode map (R98),
the rest from the vectors of 95_test_vectors.md, named at each test. Each test is one step, or the encoding of one word.
After them, one named witness of the hypotheses of each obligation that has hypotheses. -/

namespace Sys2Proof
namespace Machine

/-! ### Well-formedness -/

/-- The one check that `wellFormed` makes: the write-only variant has no `EXECR` and no `RDRX` (R10). -/
theorem test_wellFormed_refuses_reads_in_wo :
    (Instr.execr 6).wellFormed .wo = false ∧ (Instr.rdrx 0).wellFormed .wo = false ∧
    (Instr.execr 6).wellFormed .rw = true ∧ (Instr.rdrx 0).wellFormed .rw = true := by decide

/-! ### Decoding: words bit by bit from the encodings of R98 -/

theorem test_decode_init : decode .rw 0b0000000100000000#16 = .ok .init := by decide
theorem test_decode_setaddr : decode .rw 0b0000001001010010#16 = .ok (.setaddr 0b1010010#7) := by decide
theorem test_decode_append : decode .wo 0b0000001101000000#16 = .ok (.append 0b01000000#8) := by decide
theorem test_decode_execw : decode .wo 0b0000010000000000#16 = .ok .execw := by decide
theorem test_decode_execr : decode .rw 0b0000010100000110#16 = .ok (.execr 0b00000110#8) := by decide
theorem test_decode_rdrx : decode .rw 0b0000011011111111#16 = .ok (.rdrx 0b11111111#8) := by decide
theorem test_decode_rdstat : decode .rw 0b0000011100000000#16 = .ok .rdstat := by decide

/-- The rejected words of 95_test_vectors.md section 2.1, and the check order of R99. -/
theorem test_decode_errors :
    decode .rw 0x0101 = .err .reservedOperand ∧ decode .rw 0x0280 = .err .reservedOperand ∧
    decode .rw 0x0401 = .err .reservedOperand ∧ decode .rw 0x0701 = .err .reservedOperand ∧
    decode .rw 0x0000 = .err .illegalOpcode ∧ decode .rw 0x0801 = .err .illegalOpcode ∧
    decode .wo 0x0506 = .err .illegalOpcode ∧ decode .wo 0x0600 = .err .illegalOpcode := by decide

theorem test_decodeTableWord :
    decodeTableWord 16 0x0252 = some (.setaddr 0x52) ∧ decodeTableWord 16 0x0280 = none := by decide

/-! ### Small states -/

/-- A check of the next state; false where there is none. -/
def nextIs (o : Host.Outcome State Fault Refusal) (p : State → Bool) : Bool :=
  match o with
  | .next t => p t
  | .fault _ => false
  | .refused _ => false

/-- A block in `IDLE` with `n` bytes in the buffer, the first two of them `0xA4` and `0x40`. -/
def idleWith (v : Variant) (n : BitVec 6) : State :=
  { State.reset with cfg := { variant := v }, len := n, tb := [(0, 0xA4), (1, 0x40)] }

/-- `idleWith`, with the word `w` offered and the turn of the block's agent scheduled. -/
def offered (v : Variant) (n : BitVec 6) (w : Word) : State :=
  { idleWith v n with cmds := [w], sched := [.block] }

/-- After a read of six bytes, 1 to 6. -/
def afterRead : State :=
  { State.reset with rb := [(0, 1), (1, 2), (2, 3), (3, 4), (4, 5), (5, 6)], rxcnt := 6, lastok := true }

/-- A write of two bytes, at the label `l` of byte 0, with the drive modes of that label. -/
def writeAt (l : Label) : State :=
  let s := { idleWith .rw 2 with ph := l.home.1, u := l.home.2, sh := 0xA4, i := 7 }
  { s with drvScl := (drivesAt l s).1, drvSda := (drivesAt l s).2.getD .released }

/-- A read of two bytes, at the label `l`, with the drive modes of that label. -/
def readAt (l : Label) : State :=
  let s := { State.reset with
    tb := [(0, 0xA5)], len := 1, ph := l.home.1, u := l.home.2, sh := 0xA5, i := 7, mode := .r, nreq := 2 }
  { s with drvScl := (drivesAt l s).1, drvSda := (drivesAt l s).2.getD .released }

/-- The invariant holds of `s` (R43). -/
theorem inv_idleWith (v : Variant) : Inv (idleWith v 1) := by
  cases v <;> constructor <;> decide

/-- The invariant holds at every label of a write. -/
theorem inv_writeAt (l : Label) (h : l.home.1 ≠ .byteReceive) : Inv (writeAt l) := by
  cases l <;> first | (exact absurd rfl h) | (constructor <;> decide)

/-- The invariant holds at every label of a read. -/
theorem inv_readAt (l : Label) : Inv (readAt l) := by
  cases l <;> (constructor <;> decide)

/-! ### One step of each command (95_test_vectors.md section 2.4) -/

/-- Vector 1. -/
theorem test_init : nextIs (exec .init State.reset) (· = { State.reset with rsp := some 0x0100 }) := by decide

/-- Vectors 2 and 3. -/
theorem test_setaddr_discards_payload :
    nextIs (exec (.setaddr 0x10) (idleWith .rw 3)) fun t =>
      t.rsp = some 0x0120 && readTb t 0 = some 0x20 && t.len = 1 := by decide

theorem test_setaddr_top : nextIs (exec (.setaddr 0x7F) State.reset) fun t => t.rsp = some 0x01FE := by decide

/-- Vector 5: the last free place. -/
theorem test_append_last_place :
    nextIs (exec (.append 0xEE) (idleWith .rw 32)) fun t =>
      t.rsp = some 0x0100 && readTb t 32 = some 0xEE && t.len = 33 := by decide

/-- Vector 6: the byte is dropped, with the same response. -/
theorem test_append_full :
    nextIs (exec (.append 0xEF) (idleWith .rw 33)) (· = { idleWith .rw 33 with rsp := some 0x0100 }) := by decide

/-- Vector 11. -/
theorem test_execw_no_address :
    nextIs (exec .execw (idleWith .rw 0)) (· = { idleWith .rw 0 with rsp := some 0x8003 }) := by decide

theorem test_execw_starts :
    nextIs (exec .execw (idleWith .rw 2)) fun t => t.ph = .start && t.u = 0 && t.rsp = none && t.mode = .w := by decide

/-- Vector 12: `TB[0]` becomes `0xA5`. -/
theorem test_execr_sets_direction :
    nextIs (exec (.execr 1) (idleWith .rw 1)) fun t =>
      readTb t 0 = some 0xA5 && t.nreq = 1 && t.mode = .r && t.ph = .start := by decide

/-- Program P7. -/
theorem test_execr_wo : nextIs (exec (.execr 6) (idleWith .wo 1)) fun t => t.rsp = some 0x8001 := by decide

/-- Vector 16. -/
theorem test_rdrx_last : nextIs (exec (.rdrx 5) afterRead) (· = { afterRead with rsp := some 0x0106 }) := by decide

/-- Vectors 17 and 18. -/
theorem test_rdrx_out_of_range :
    nextIs (exec (.rdrx 6) afterRead) (· = { afterRead with rsp := some 0x8004 }) ∧
    nextIs (exec (.rdrx 255) afterRead) (· = { afterRead with rsp := some 0x8004 }) := by decide

/-- Vectors 19, 21 and 23. -/
theorem test_rdstat :
    nextIs (exec .rdstat State.reset) (fun t => t.rsp = some 0x0104) ∧
    nextIs (exec .rdstat afterRead) (fun t => t.rsp = some 0x0106) ∧
    nextIs (exec .rdstat (idleWith .wo 0)) (fun t => t.rsp = some 0x0100) := by decide

/-- Vectors 20 and 22. -/
theorem test_rdstat_address :
    nextIs (exec .rdstat (idleWith .rw 1)) (fun t => t.rsp = some 0x0105) ∧
    nextIs (exec .rdstat { idleWith .rw 1 with lastok := true }) (fun t => t.rsp = some 0x0107) := by decide

/-- The step accepts an offered word; an illegal one is an error (section 2.5). -/
theorem test_step_accepts :
    nextIs (step (offered .rw 1 0x0355)) (fun t => t.rsp = some 0x0100 && readTb t 1 = some 0x55 && t.cmds = []) ∧
    nextIs (step (offered .rw 1 0x0800)) (fun t => t.rsp = some 0x8001 && t.len = 1) := by decide

/-- The host's placing runs at once. -/
theorem test_withFetchWord :
    nextIs (step (State.reset.withFetchWord 16 0x0252)) fun t => t.rsp = some 0x01A4 && t.len = 1 := by decide

/-! ### Single engine steps (95_test_vectors.md section 2.3) -/

/-- 2.3.1: after `ST0` the wire is `1 0`. -/
theorem test_st0 : nextIs (engineStep (writeAt .st0)) fun t => level t .scl && !level t .sda := by decide

/-- 2.3.2: bit 7 of `0xA4` is 1 and bit 6 is 0. -/
theorem test_tx0 :
    nextIs (engineStep (writeAt .tx0)) (fun t => level t .sda) ∧
    nextIs (engineStep { writeAt .tx0 with i := 6 }) (fun t => !level t .sda) := by decide

/-- 2.3.2 and 2.3.3: LOW is ACK, HIGH is NACK. -/
theorem test_tx9 :
    nextIs (engineStep { writeAt .tx9 with extSda := true }) (fun t => t.ph = .ackOk && !t.ackf) ∧
    nextIs (engineStep (writeAt .tx9)) (fun t => t.ph = .ackFail && t.ackf) := by decide

/-- 2.3.4: the dispatch at `AK2`, with a full buffer at its last byte, and of a read of no byte. -/
theorem test_ak2 :
    nextIs (engineStep { writeAt .ak2 with k := 32, len := 33 }) (fun t => t.ph = .stop) ∧
    nextIs (engineStep { writeAt .ak2 with k := 0, len := 2 }) (fun t => t.ph = .byteTransfer && t.k = 1 && t.sh = 0x40) ∧
    nextIs (engineStep { readAt .ak2 with nreq := 0 }) (fun t => t.ph = .stop) ∧
    nextIs (engineStep (readAt .ak2)) (fun t => t.ph = .byteReceive && t.j = 0 && t.i = 7) := by decide

/-- 2.3.6 and 2.3.7: ACK for a byte that is not the last, none for the last. -/
theorem test_rx8 :
    nextIs (engineStep (readAt .rx8)) (fun t => t.drvSda = .drivenLow) ∧
    nextIs (engineStep { readAt .rx8 with j := 1 }) (fun t => t.drvSda = .released) := by decide

/-- 2.3.7: the end of a read of six bytes. -/
theorem test_sp6 :
    nextIs (engineStep { readAt .sp6 with nreq := 6 }) fun t =>
      t.rsp = some 0x0106 && t.lastok && t.rxcnt = 6 && t.len = 0 && t.ph = .idle := by decide

/-- 2.3.9: the engine is held at `RX2`. -/
theorem test_rx2_held :
    nextIs (engineStep { readAt .rx2 with extScl := true }) (· = { readAt .rx2 with extScl := true }) := by decide

/-- 2.3.5: the end of a write that was not acknowledged. -/
theorem test_af0 :
    nextIs (engineStep (writeAt .af0)) fun t => t.rsp = some 0x0000 && t.len = 0 && t.ph = .idle && !t.lastok := by
  decide

/-- 2.6 row 4: `rst` at the hang. -/
theorem test_rst :
    nextIs (step { readAt .rx2 with extScl := true, sched := [.rst] }) fun t =>
      t.ph = .idle && t.len = 0 && t.rsp = none && t.drvScl = .released && t.extScl := by decide

/-! ### The ports in a reset cycle, and the observer (95_test_vectors.md sections 2.3 and 2.6) -/

/-- R240, and 2.6 row 1: `cmd_ready` is 0 while `rst` is 1 and 1 after it. -/
theorem test_cmdReady_in_reset :
    cmdReady { State.reset with sched := [.rst] } = false ∧ rspValid { afterRead with sched := [.rst] } = false ∧
    nextIs (step { writeAt .st1 with sched := [.rst] }) (fun t => cmdReady t && !busy t) := by decide

/-- Wire levels written as the traces of section 2.3 write them, `SCL` then `SDA`. -/
def lv (scl sda : Nat) : Levels := ⟨scl = 1, sda = 1⟩

/-- 2.3.1 and 2.3.2: the wire of START and of `0xA4`, acknowledged, up to the fall of the ninth pulse. -/
def wireOfA4 : List Levels :=
  [lv 1 0, lv 0 0,
   lv 0 1, lv 1 1, lv 0 1,  lv 0 0, lv 1 0, lv 0 0,  lv 0 1, lv 1 1, lv 0 1,  lv 0 0, lv 1 0, lv 0 0,
   lv 0 0, lv 1 0, lv 0 0,  lv 0 1, lv 1 1, lv 0 1,  lv 0 0, lv 1 0, lv 0 0,  lv 0 0, lv 1 0, lv 0 0,
   lv 0 0, lv 1 0, lv 1 0, lv 0 1]

/-- "The observer reads `0xA4+ACK`", in nine clock pulses. -/
theorem test_observer_byte :
    (wireOfA4.foldl Observer.look (Observer.begin (lv 1 1))).seen = [.start, .byteTransfer 0xA4 false] ∧
    (wireOfA4.foldl Observer.look (Observer.begin (lv 1 1))).pulses = 9 := by decide +kernel

/-- 2.3.10: the wire of STOP. -/
theorem test_observer_stop :
    ([lv 0 0, lv 1 0, lv 1 1].foldl Observer.look (Observer.begin (lv 0 1))).seen = [.stop] := by decide

/-! ### Witnesses: a state and operands that meet the hypotheses of each obligation -/

/-- What the block's agent finds at its turn in `offered`. -/
theorem grant_offered (v : Variant) (n : BitVec 6) (w : Word) :
    grant (offered v n w) = some { idleWith v n with cmds := [w] } := rfl

/-- A state with the turn of the block's agent scheduled. -/
def itsTurn (s : State) : State := { s with sched := [.block] }

theorem grant_itsTurn (s : State) : grant (itsTurn s) = some { s with sched := [], rsp := none } := rfl

/-- With nothing scheduled the block's agent has its turn too, after free `BUS` values. -/
theorem test_witness_grant_unscheduled : ∃ g, grant State.reset = some g ∧ State.reset.ph = .idle := ⟨_, rfl, rfl⟩

theorem test_witness_DecodeOfEncodeIsTheCommand :
    (Instr.execr 0xFF).wellFormed .rw = true ∧ (Instr.setaddr 0x7F).wellFormed .wo = true := by decide

theorem test_witness_EncodeOfDecodeIsTheWord :
    decode .rw 0x06FF = .ok (.rdrx 0xFF) ∧ decode .wo 0x0200 = .ok (.setaddr 0) := by decide

theorem test_witness_DecoderFollowsTheOpcodeMap :
    decode .rw 0x027F = .ok (.setaddr 0x7F) ∧ ∃ r ∈ opcodeTable, 0x027F#16 &&& r.mask = r.bits := by decide

theorem test_witness_IllegalAndReservedWords :
    (∃ g, grant (offered .rw 1 0x0800) = some g ∧ (offered .rw 1 0x0800).ph = .idle ∧
      (offered .rw 1 0x0800).cmds = [0x0800#16] ∧ decode .rw 0x0800 = .err .illegalOpcode) ∧
    (∃ g, grant (offered .wo 0 0x0500) = some g ∧ (offered .wo 0 0x0500).ph = .idle ∧
      (offered .wo 0 0x0500).cmds = [0x0500#16] ∧ decode .wo 0x0500 = .err .illegalOpcode) ∧
    (∃ g, grant (offered .rw 1 0x0280) = some g ∧ (offered .rw 1 0x0280).ph = .idle ∧
      (offered .rw 1 0x0280).cmds = [0x0280#16] ∧ decode .rw 0x0280 = .err .reservedOperand) ∧
    decode .rw 0x01FF = .err .reservedOperand ∧ decode .wo 0x0300 = .ok (.append 0) :=
  ⟨⟨_, rfl, by decide⟩, ⟨_, rfl, by decide⟩, ⟨_, rfl, by decide⟩, by decide⟩

theorem test_witness_VariantChangesTwoOpcodesOnly :
    opField 0x0500 = 0x05 ∧ opField 0x06FF = 0x06 ∧ opField 0x0400 ≠ 0x05 ∧ opField 0x0700 ≠ 0x06 := by decide

theorem test_witness_StepRunsTheDecodedCommand :
    (∃ g, grant (offered .wo 0 0x027F) = some g ∧ (offered .wo 0 0x027F).ph = .idle ∧
      (offered .wo 0 0x027F).cmds = [0x027F#16] ∧ decode (offered .wo 0 0x027F).cfg.variant 0x027F = .ok (.setaddr 0x7F)) ∧
    (∃ g, grant { offered .rw 1 0x0506 with sched := [] } = some g ∧
      decode (offered .rw 1 0x0506).cfg.variant 0x0506 = .ok (.execr 6)) :=
  ⟨⟨_, rfl, by decide⟩, ⟨_, rfl, by decide⟩⟩

theorem test_witness_FetchWordIsRunNext : Instr.rdstat.wellFormed (writeAt .tx3).cfg.variant = true := by decide

theorem test_witness_EngineRunsWhileBusy :
    ∃ g, grant (itsTurn { readAt .rx17 with cmds := [0x0100] }) = some g ∧ (readAt .rx17).ph ≠ .idle ∧
      labelAt (readAt .rx17).ph (readAt .rx17).u = some .rx17 ∧
      ∃ t, step (itsTurn { readAt .rx17 with cmds := [0x0100] }) = .next t :=
  ⟨_, rfl, by decide, by decide, _, rfl⟩

theorem test_witness_ResponseEndsTheCommand :
    (∃ g t, grant (itsTurn (writeAt .af0)) = some g ∧ (writeAt .af0).ph ≠ .idle ∧
      step (itsTurn (writeAt .af0)) = .next t ∧ t.ph = .idle) ∧
    (∃ g t, grant (offered .rw 1 0x0400) = some g ∧ (offered .rw 1 0x0400).cmds ≠ [] ∧
      step (offered .rw 1 0x0400) = .next t ∧ t.ph = .start) :=
  ⟨⟨_, _, rfl, by decide, rfl, rfl⟩, ⟨_, _, rfl, by decide, rfl, rfl⟩⟩

theorem test_witness_ResetCycleEndsEverything :
    { writeAt .st1 with sched := [.rst] }.sched = .rst :: [] ∧ { writeAt .st1 with sched := [.rst, .rst] }.sched = .rst :: [.rst] := by
  decide

theorem test_witness_InitReleasesBothLines :
    Inv (idleWith .rw 1) ∧ (idleWith .rw 1).ph = .idle ∧ opField 0x0101 = 0x01 ∧ immField 0x0101 ≠ 0 :=
  ⟨inv_idleWith _, by decide⟩

theorem test_witness_SetaddrStoresTheAddressByte :
    (idleWith .wo 33).ph = .idle ∧ opField 0x0280 = 0x02 ∧ (immField 0x0280).getLsbD 7 = true ∧
    opField 0x027F = 0x02 ∧ (immField 0x027F).getLsbD 7 = false := by decide

theorem test_witness_AppendStoresOrDropsOrErrs :
    (idleWith .wo 0).ph = .idle ∧ (idleWith .wo 0).len = 0 ∧
    (idleWith .rw 1).ph = .idle ∧ (idleWith .rw 1).len ≠ 0 ∧ (idleWith .rw 1).len.toNat < 33 ∧
    (idleWith .rw 32).len ≠ 0 ∧ (idleWith .rw 32).len.toNat < 33 ∧
    (idleWith .rw 33).ph = .idle ∧ 33 ≤ (idleWith .rw 33).len.toNat := by decide

theorem test_witness_EmptyBufferIsNoAddress :
    (idleWith .rw 0).ph = .idle ∧ (idleWith .rw 0).len = 0 ∧ (idleWith .rw 0).cfg.variant = .rw := by decide

theorem test_witness_AppendsStoresUpToTheCapacity :
    (idleWith .rw 1).ph = .idle ∧ 1 ≤ (idleWith .rw 1).len.toNat ∧ (idleWith .rw 1).len.toNat ≤ 33 ∧
    (idleWith .rw 33).ph = .idle ∧ 1 ≤ (idleWith .rw 33).len.toNat ∧ (idleWith .rw 33).len.toNat ≤ 33 ∧
    (idleWith .rw 0).ph = .idle ∧ (idleWith .rw 0).len = 0 ∧ [0x11#8, 0x22#8] ≠ [] := by decide

theorem test_witness_ExecwStartsAWrite :
    (idleWith .rw 0).ph = .idle ∧ (idleWith .rw 0).len = 0 ∧
    (idleWith .rw 1).len ≠ 0 ∧ (idleWith .rw 1).cfg.variant = .rw ∧
    (idleWith .wo 33).ph = .idle ∧ (idleWith .wo 33).len ≠ 0 ∧ (idleWith .wo 33).cfg.variant = .wo := by decide

theorem test_witness_ExecrStartsARead :
    (idleWith .wo 1).ph = .idle ∧ (idleWith .wo 1).cfg.variant = .wo ∧
    (idleWith .rw 0).ph = .idle ∧ (idleWith .rw 0).cfg.variant = .rw ∧ (idleWith .rw 0).len = 0 ∧
    (idleWith .rw 1).cfg.variant = .rw ∧ (idleWith .rw 1).len ≠ 0 := by decide

theorem test_witness_RdrxAnswersTheReceivedByte :
    (idleWith .wo 0).ph = .idle ∧ (idleWith .wo 0).cfg.variant = .wo ∧
    afterRead.ph = .idle ∧ afterRead.cfg.variant = .rw ∧
    afterRead.rxcnt.toNat ≤ (6#8).toNat ∧ (5#8).toNat < afterRead.rxcnt.toNat := by decide

theorem test_witness_RdstatAnswersTheStatusView :
    afterRead.ph = .idle ∧ (idleWith .wo 33).ph = .idle ∧ opField 0x0701 = 0x07 ∧ immField 0x0701 ≠ 0 := by decide

theorem test_witness_CommandsKeepLinesAndResults :
    ∃ t, exec (.setaddr 0x52) afterRead = .next t ∧ Instr.setaddr 0x52 ≠ .init := ⟨_, rfl, by decide⟩

theorem test_witness_DirectionBitIsWriteAtEveryExecw :
    (Inv (idleWith .rw 1) ∧ (idleWith .rw 1).ph = .idle ∧ (idleWith .rw 1).len ≠ 0 ∧
      (idleWith .rw 1).cfg.variant = .rw) ∧
    (Inv (idleWith .wo 1) ∧ (idleWith .wo 1).ph = .idle ∧ (idleWith .wo 1).len ≠ 0 ∧
      (idleWith .wo 1).cfg.variant = .wo) :=
  ⟨⟨inv_idleWith _, by decide⟩, ⟨inv_idleWith _, by decide⟩⟩

theorem test_witness_CommandErrorChangesNothing :
    ∃ g t, grant (offered .rw 0 0x0311) = some g ∧ (offered .rw 0 0x0311).ph = .idle ∧
      (offered .rw 0 0x0311).cmds = [0x0311#16] ∧ step (offered .rw 0 0x0311) = .next t ∧
      t.rsp = some 0x8003#16 ∧ (0x8003#16).getLsbD 15 = true :=
  ⟨_, _, rfl, rfl, rfl, rfl, by decide, by decide⟩

theorem test_witness_EachErrorCodeHasItsCause :
    (∃ g, grant (offered .rw 1 0x06FF) = some g ∧ (offered .rw 1 0x06FF).ph = .idle ∧
      (offered .rw 1 0x06FF).cmds = [0x06FF#16]) ∧
    decode .rw 0x06FF = .ok (.rdrx 0xFF) ∧ (offered .rw 1 0x06FF).rxcnt.toNat ≤ (0xFF#8).toNat :=
  ⟨⟨_, rfl, rfl, rfl⟩, by decide⟩

theorem test_witness_LevelIsTheWiredAnd :
    (driveOf (writeAt .sp1) .sda = .drivenLow) ∧
    ¬ (driveOf State.reset .scl = .drivenLow ∨ extOf State.reset .scl = true) := by decide

theorem test_witness_DriveMicroOperations :
    Line.scl ≠ Line.sda ∧ driveOf (writeAt .st2) .sda = .drivenLow ∧ driveOf (writeAt .st2) .scl = .released := by decide

theorem test_witness_SampleAndWaitOfAReleasedLine :
    driveOf (readAt .rx2) .scl = .released ∧ extOf (readAt .rx2) .scl = false ∧
    driveOf { readAt .rx2 with extScl := true } .scl = .released ∧
    extOf { readAt .rx2 with extScl := true } .scl = true := by decide

theorem test_witness_ReadsOnlyOfReleasedLines :
    driveOf (writeAt .st2) .sda ≠ .released ∧
    (Inv (readAt .rx3) ∧ currentOp (readAt .rx3) = some (.sample .sda)) ∧
    (Inv (readAt .rx11) ∧ currentOp (readAt .rx11) = some (.waitH .scl)) :=
  ⟨by decide, ⟨inv_readAt _, by decide⟩, ⟨inv_readAt _, by decide⟩⟩

theorem test_witness_LineEventsAreTheDriveSteps :
    (∃ t, (MicroOp.setSda true).run (writeAt .tx0) = .done t false ∧
      (MicroOp.setSda true).lineEvent = some (.sda, .released)) ∧
    (∃ t, MicroOp.book.run State.reset = .done t false ∧ MicroOp.book.lineEvent = none) :=
  ⟨⟨_, rfl, rfl⟩, ⟨_, rfl, rfl⟩⟩

theorem test_witness_StartRoutine :
    (writeAt .st0).ph = .start ∧ (writeAt .st0).u = 0 ∧ (writeAt .st0).sched = [] := by decide

theorem test_witness_TransmitBitLoop :
    (writeAt .tx0).ph = .byteTransfer ∧ (writeAt .tx0).u = 0 ∧ (writeAt .tx0).i = 7 ∧
    (writeAt .tx0).sched = [] := by decide

theorem test_witness_AckSampling :
    (writeAt .tx6).ph = .byteTransfer ∧ (writeAt .tx6).u = 6 ∧ (writeAt .tx6).sched = [] ∧
    (writeAt .tx9).ph = .byteTransfer ∧ (writeAt .tx9).u = 9 ∧ (writeAt .tx9).drvSda = .released ∧
    (writeAt .tx9).extSda = false ∧ { writeAt .tx9 with extSda := true }.extSda = true := by decide

/-- `AK2` of byte `k` of a write of `n` bytes. -/
def atDispatch (k n : BitVec 6) : State := { writeAt .ak2 with k := k, len := n }

theorem test_witness_AckOkDispatch :
    ((writeAt .ak0).ph = .ackOk ∧ (writeAt .ak0).u = 0 ∧ (writeAt .ak0).sched = []) ∧
    ((atDispatch 31 33).ph = .ackOk ∧ (atDispatch 31 33).u = 2 ∧ (atDispatch 31 33).mode = .w ∧
      (atDispatch 31 33).len.toNat ≤ 33 ∧ (atDispatch 31 33).k.toNat + 1 < (atDispatch 31 33).len.toNat) ∧
    ((atDispatch 32 33).ph = .ackOk ∧ (atDispatch 32 33).u = 2 ∧ (atDispatch 32 33).mode = .w ∧
      (atDispatch 32 33).len.toNat ≤ 33 ∧ ¬ (atDispatch 32 33).k.toNat + 1 < (atDispatch 32 33).len.toNat) ∧
    ((readAt .ak2).ph = .ackOk ∧ (readAt .ak2).u = 2 ∧ (readAt .ak2).mode = .r ∧ (readAt .ak2).nreq ≠ 0) ∧
    { readAt .ak2 with nreq := 0 }.nreq = 0 := by decide

theorem test_witness_AckFailureEntry :
    (Inv (writeAt .af0) ∧ (writeAt .af0).ph = .ackFail ∧ (writeAt .af0).u = 0) ∧
    (Inv (readAt .af0) ∧ (readAt .af0).ph = .ackFail ∧ (readAt .af0).u = 0) :=
  ⟨⟨inv_writeAt _ (by decide), by decide⟩, ⟨inv_readAt _, by decide⟩⟩

/-- `RX0` of a bit, with the six steps of the bit scheduled. -/
def atBit (n : BitVec 3) : State := { readAt .rx0 with i := n, sched := List.replicate 6 .block }

/-- `RX6` of byte `n` of a read of 255 bytes, with its twelve steps scheduled. -/
def atStore (n : BitVec 8) : State := { readAt .rx6 with j := n, nreq := 255, sched := List.replicate 12 .block }

theorem test_witness_ReceiveOneBit :
    ((atBit 7).ph = .byteReceive ∧ (atBit 7).u = 0 ∧ (atBit 7).drvSda = .released ∧ (atBit 7).extScl = false ∧
      (atBit 7).sched = List.replicate 6 .block) ∧
    ((atBit 0).ph = .byteReceive ∧ (atBit 0).u = 0 ∧ (atBit 0).drvSda = .released ∧ (atBit 0).extScl = false ∧
      (atBit 0).sched = List.replicate 6 .block) := by decide

theorem test_witness_ReceiveAcknowledgment :
    ((atStore 0).ph = .byteReceive ∧ (atStore 0).u = 6 ∧ (atStore 0).j < (atStore 0).nreq ∧
      (atStore 0).extScl = false ∧ (atStore 0).sched = List.replicate 12 .block) ∧
    ((atStore 254).ph = .byteReceive ∧ (atStore 254).u = 6 ∧ (atStore 254).j < (atStore 254).nreq ∧
      (atStore 254).extScl = false ∧ (atStore 254).sched = List.replicate 12 .block) := by decide

theorem test_witness_StopRoutine :
    (writeAt .sp0).ph = .stop ∧ (writeAt .sp0).u = 0 ∧ (writeAt .sp0).sched = [] ∧ (writeAt .sp0).mode = .w ∧
    (readAt .sp0).ph = .stop ∧ (readAt .sp0).u = 0 ∧ (readAt .sp0).sched = [] ∧ (readAt .sp0).mode = .r := by decide

theorem test_witness_HeldOnlyInReception :
    (labelAt (readAt .rx2).ph (readAt .rx2).u = some .rx2 ∧
      (microOp .rx2 { readAt .rx2 with extScl := true }).run { readAt .rx2 with extScl := true } = .held) ∧
    (Inv (readAt .rx11) ∧ labelAt (readAt .rx11).ph (readAt .rx11).u = some .rx11 ∧ (readAt .rx11).extScl = false) ∧
    (Inv { readAt .rx2 with extScl := true } ∧ { readAt .rx2 with extScl := true }.extScl = true) :=
  ⟨⟨by decide, rfl⟩, ⟨inv_readAt _, by decide⟩, ⟨by constructor <;> decide, rfl⟩⟩

theorem test_witness_TransmissionIgnoresStretching : (writeAt .tx2).ph ≠ .byteReceive := by decide

/-- `RX11` with `SCL` held, and two steps of the outside scheduled. -/
def stalled : State := { readAt .rx11 with extScl := true, sched := [.block, .bus true true] }

theorem test_witness_StallLastsWhileTheClockIsHeld :
    labelAt stalled.ph stalled.u = some .rx11 ∧ stalled.drvScl = .released ∧ stalled.extScl = true ∧
    (∀ e ∈ stalled.sched, e = .block ∨ ∃ b, e = .bus true b) := by
  refine ⟨by decide, by decide, by decide, ?_⟩
  intro e he
  simp [stalled] at he
  rcases he with rfl | rfl
  · exact .inl rfl
  · exact .inr ⟨true, rfl⟩

theorem test_witness_EveryStepKeepsTheInvariant :
    ∃ t, Inv (readAt .rx17) ∧ step (readAt .rx17) = .next t := ⟨_, inv_readAt _, rfl⟩

theorem test_witness_NoFaultAndNoRefusal : Inv (readAt .rx6) ∧ Inv (idleWith .wo 1) :=
  ⟨inv_readAt _, inv_idleWith _⟩

theorem test_witness_SdaChangesOnlyUnderALowClock :
    (Inv (readAt .rx8) ∧ currentOp (readAt .rx8) = some (.dl .sda) ∧
      (MicroOp.dl .sda).lineEvent = some (.sda, .drivenLow) ∧ (readAt .rx8).ph ≠ .start ∧ (readAt .rx8).ph ≠ .stop) ∧
    (Inv (writeAt .sp4) ∧ currentOp (writeAt .sp4) = some (.rl .sda) ∧
      (MicroOp.rl .sda).lineEvent = some (.sda, .released) ∧ (writeAt .sp4).drvScl = .released) ∧
    (Inv (writeAt .tx9) ∧ currentOp (writeAt .tx9) = some (.sample .sda)) :=
  ⟨⟨inv_readAt _, by decide⟩, ⟨inv_writeAt _ (by decide), by decide⟩, ⟨inv_writeAt _ (by decide), by decide⟩⟩

theorem test_witness_OneLineAStep : ∃ t, step (itsTurn (writeAt .st2)) = .next t ∧ t.drvScl ≠ (writeAt .st2).drvScl :=
  ⟨_, rfl, by decide⟩

theorem test_witness_BufferIsFixedDuringATransaction :
    (itsTurn (writeAt .sp6)).ph ≠ .idle ∧ (∀ es, (itsTurn (writeAt .sp6)).sched ≠ .rst :: es) ∧
    ∃ t, step (itsTurn (writeAt .sp6)) = .next t ∧ t.ph = .idle ∧ t.len = 0 :=
  ⟨by decide, by intro es; simp [itsTurn], _, rfl, by decide, by decide⟩

theorem test_witness_ResultsChangeOnlyByTheEngine :
    (∀ es, (itsTurn (readAt .sp6)).sched ≠ .rst :: es) ∧
    (∃ t, step (itsTurn (readAt .sp6)) = .next t ∧ t.lastok ≠ (readAt .sp6).lastok ∧
      t.rxcnt ≠ (readAt .sp6).rxcnt) ∧
    (∃ t, step (itsTurn (readAt .rx6)) = .next t ∧ readRb t 0 ≠ readRb (readAt .rx6) 0) :=
  ⟨by intro es; simp [itsTurn], ⟨_, rfl, by decide, by decide⟩, ⟨_, rfl, by decide⟩⟩

theorem test_witness_BufferIsEmptyAfterATransaction :
    (∃ t, (itsTurn (writeAt .sp6)).ph ≠ .idle ∧ step (itsTurn (writeAt .sp6)) = .next t ∧ t.ph = .idle) ∧
    (∃ t, (offered .rw 0 0x0400).ph = .idle ∧ (offered .rw 0 0x0400).len = 0 ∧
      step (offered .rw 0 0x0400) = .next t ∧ t.len = 0) ∧
    (∃ t, (offered .wo 0 0x0252).ph = .idle ∧ (offered .wo 0 0x0252).len = 0 ∧
      step (offered .wo 0 0x0252) = .next t ∧ t.len = 1) ∧
    (afterRead.ph = .idle ∧ afterRead.len = 0 ∧ afterRead.cfg.variant = .rw) :=
  ⟨⟨_, by decide, rfl, by decide⟩, ⟨_, rfl, by decide, rfl, by decide⟩, ⟨_, rfl, by decide, rfl, by decide⟩, by decide⟩

theorem test_witness_ConfigurationIsFixed :
    ∃ t, step (itsTurn (writeAt .tx9)) = .next t ∧ t.ph = .ackFail := ⟨_, rfl, by decide⟩

/-- A reset state whose unspecified registers hold other values. -/
def otherReset : State :=
  { State.reset with tb := [(7, 0x55)], rb := [(0, 0xAA)], sh := 0xFF, ackf := true, k := 3, i := 2, j := 9, nreq := 4 }

/-- The two differ, and in nothing that can matter. -/
theorem test_witness_UnspecifiedRegistersCannotMatter :
    Inv State.reset ∧ Inv otherReset ∧ SameLive State.reset otherReset ∧ State.reset ≠ otherReset ∧
    ∃ t, step State.reset = .next t := by
  refine ⟨by constructor <;> decide, by constructor <;> decide, ?_, by decide, _, rfl⟩
  constructor <;> simp [State.reset, Block.reset, otherReset, rbLive]

/-- A write transaction about to start, of two bytes. -/
def aboutToWrite (ext : Bool) (es : List Event) : State := { writeAt .st0 with extSda := ext, sched := es }

/-- A read transaction about to start, of `n` bytes. -/
def aboutToRead (n : BitVec 8) (ext : Bool) (es : List Event) : State :=
  { readAt .st0 with nreq := n, extSda := ext, sched := es }

theorem inv_aboutToWrite (ext : Bool) (es : List Event) : Inv (aboutToWrite ext es) := by
  have h := inv_writeAt .st0 (by decide)
  exact ⟨h.lenLe, h.position, h.drives, h.hasAddress, h.kBound, h.kRead, h.shCopy, by simp [aboutToWrite, writeAt, Label.home],
    h.direction, h.writeOnly, h.tbWf, h.rbWf⟩

theorem inv_aboutToRead (n : BitVec 8) (ext : Bool) (es : List Event) : Inv (aboutToRead n ext es) := by
  have h := inv_readAt .st0
  exact ⟨h.lenLe, h.position, h.drives, h.hasAddress, h.kBound, h.kRead, h.shCopy, by simp [aboutToRead, readAt, Label.home],
    h.direction, h.writeOnly, h.tbWf, h.rbWf⟩

/-- Whether `n` steps from `s` make the first return to `IDLE`. -/
def firstIdle : Nat → State → Bool
  | 0, s => s.ph = .idle
  | n + 1, s => !(s.ph = .idle) && nextIs (step s) (firstIdle n)

theorem transactionEnd_of_firstIdle {n : Nat} {s : State} (h : firstIdle n s = true) : ∃ t, TransactionEnd n s t := by
  induction n generalizing s with
  | zero => exact ⟨s, .here (by simpa [firstIdle] using h)⟩
  | succ n ih =>
    simp only [firstIdle, Bool.and_eq_true, Bool.not_eq_true', decide_eq_false_iff_not] at h
    obtain ⟨hp, hn⟩ := h
    cases hs : step s with
    | next u =>
      rw [hs] at hn
      obtain ⟨t, ht⟩ := ih hn
      exact ⟨t, ht.step hp hs⟩
    | fault f => simp [hs, nextIs] at hn
    | refused r => simp [hs, nextIs] at hn

/-- A write that nobody acknowledges. -/
def lostWrite : State := aboutToWrite false (List.replicate 58 .block)

/-- A write whose address byte is acknowledged. -/
def ackedWrite : State := { aboutToWrite true (List.replicate 57 .block) with len := 1 }

/-- A read that nobody acknowledges. -/
def lostRead : State := aboutToRead 6 false (List.replicate 58 .block)

/-- A read of `n` bytes from a target that presents `ds`. -/
def presentedRead (n : BitVec 8) (ds : List Byte) : State :=
  aboutToRead n true (List.replicate 60 .block ++ ds.flatMap presentByte ++ List.replicate 7 .block)

theorem test_witness_StartAndStopConditions :
    (Inv (writeAt .st0) ∧ (writeAt .st0).ph = .start ∧ (writeAt .st0).u = 0 ∧ (writeAt .st0).extScl = false ∧
      (writeAt .st0).extSda = false ∧ ∃ t, engineStep (writeAt .st0) = .next t ∧ startCondition (writeAt .st0) t = true) ∧
    (Inv (writeAt .sp4) ∧ (writeAt .sp4).ph = .stop ∧ (writeAt .sp4).u = 4 ∧ (writeAt .sp4).extScl = false ∧
      (writeAt .sp4).extSda = false ∧ ∃ t, engineStep (writeAt .sp4) = .next t ∧ stopCondition (writeAt .sp4) t = true) ∧
    (Inv lostWrite ∧ lostWrite.ph = .start ∧ lostWrite.u = 0 ∧ .rst ∉ lostWrite.sched ∧
      (∃ t, TransactionEnd 58 lostWrite t) ∧ politeBus 58 lostWrite = true) :=
  ⟨⟨inv_writeAt _ (by decide), by decide, by decide, by decide, by decide, _, rfl, by decide⟩,
   ⟨inv_writeAt _ (by decide), by decide, by decide, by decide, by decide, _, rfl, by decide⟩,
   ⟨inv_aboutToWrite _ _, rfl, rfl, by decide, transactionEnd_of_firstIdle (by decide +kernel), by decide +kernel⟩⟩

theorem test_witness_WriteOutcome :
    Inv (aboutToWrite false []) ∧ (aboutToWrite false []).ph = .start ∧ (aboutToWrite false []).u = 0 ∧
    (aboutToWrite false []).mode = .w ∧ .rst ∉ (aboutToWrite false []).sched :=
  ⟨inv_aboutToWrite _ _, rfl, rfl, rfl, by decide⟩

theorem test_witness_AcknowledgedWriteSucceeds :
    Inv ackedWrite ∧ ackedWrite.ph = .start ∧ ackedWrite.u = 0 ∧ ackedWrite.mode = .w ∧ .rst ∉ ackedWrite.sched ∧
    (ackPulls 57 ackedWrite).take ackedWrite.len.toNat = List.replicate ackedWrite.len.toNat true :=
  ⟨by constructor <;> decide, rfl, rfl, rfl, by decide, by decide +kernel⟩

theorem test_witness_UnacknowledgedByteAborts :
    Inv lostWrite ∧ lostWrite.ph = .start ∧ lostWrite.u = 0 ∧ lostWrite.mode = .w ∧ .rst ∉ lostWrite.sched ∧
    0 < lostWrite.len.toNat ∧ (ackPulls 57 lostWrite).take (0 + 1) = List.replicate 0 true ++ [false] :=
  ⟨inv_aboutToWrite _ _, rfl, rfl, rfl, by decide, by decide, by decide +kernel⟩

theorem test_witness_ReadReturnsThePresentedBytes :
    (Inv (presentedRead 0 []) ∧ (presentedRead 0 []).ph = .start ∧ (presentedRead 0 []).u = 0 ∧
      (presentedRead 0 []).mode = .r ∧ .rst ∉ (presentedRead 0 []).sched ∧
      (∃ t, TransactionEnd 67 (presentedRead 0 []) t) ∧ (ackPulls 67 (presentedRead 0 [])).head? = some true) ∧
    (Inv (presentedRead 2 [0xA5, 0x3C]) ∧ (presentedRead 2 [0xA5, 0x3C]).ph = .start ∧
      (presentedRead 2 [0xA5, 0x3C]).u = 0 ∧ (presentedRead 2 [0xA5, 0x3C]).mode = .r ∧
      (presentedRead 2 [0xA5, 0x3C]).nreq.toNat = [0xA5#8, 0x3C#8].length ∧
      (presentedRead 2 [0xA5, 0x3C]).extScl = false ∧ (presentedRead 2 [0xA5, 0x3C]).extSda = true ∧
      (presentedRead 2 [0xA5, 0x3C]).sched =
        List.replicate 60 .block ++ [0xA5#8, 0x3C#8].flatMap presentByte ++ List.replicate 7 .block) :=
  ⟨⟨inv_aboutToRead _ _ _, rfl, rfl, rfl, by decide, transactionEnd_of_firstIdle (by decide +kernel), by decide +kernel⟩,
   ⟨inv_aboutToRead _ _ _, rfl, rfl, rfl, rfl, rfl, rfl, rfl⟩⟩

theorem test_witness_UnacknowledgedReadAborts :
    Inv lostRead ∧ lostRead.ph = .start ∧ lostRead.u = 0 ∧ lostRead.mode = .r ∧ .rst ∉ lostRead.sched ∧
    (ackPulls 57 lostRead).head? = some false :=
  ⟨inv_aboutToRead _ _ _, rfl, rfl, rfl, by decide, by decide +kernel⟩

end Machine
end Sys2Proof
end

section
/-! PROOFS. What one step can do, said once: the end of a labelled step, a command, a word offered, a turn. The
statements about the registers that no step, no command or no engine step changes follow from it. -/

namespace Sys2Proof
namespace Machine

/-! ### Commands -/

/-- `INIT` releases both lines and answers (R181). -/
theorem exec_init_next {s t : State} (h : exec .init s = .next t) :
    t = { s with drvScl := .released, drvSda := .released, rsp := some (responseWord false true 0x00) } := by
  obtain ⟨-, h⟩ := whenIdle_next h
  cases h
  rfl

/-- The registers that the commands other than `INIT` do not write: they write `TB`, `LEN`, `NREQ`, the position, `MODE`
and the response at most (R23, R182 to R195). -/
theorem exec_frame_of_ne_init {i : Instr} {s t : State} (hi : i ≠ .init) (h : exec i s = .next t) :
    t = { s with
      tb := t.tb, len := t.len, nreq := t.nreq, ph := t.ph, u := t.u, mode := t.mode, rsp := t.rsp } := by
  cases i with
  | init => exact absurd rfl hi
  | setaddr a7 => obtain ⟨-, h⟩ := whenIdle_next h; cases h; rfl
  | append b8 => obtain ⟨-, ⟨-, rfl⟩ | ⟨-, -, rfl⟩ | ⟨-, -, rfl⟩⟩ := execAppend_cases h <;> rfl
  | execw => obtain ⟨-, ⟨-, rfl⟩ | ⟨-, -, rfl⟩ | ⟨-, -, rfl⟩⟩ := execExecw_cases h <;> rfl
  | execr n8 => obtain ⟨-, ⟨-, rfl⟩ | ⟨-, -, rfl⟩ | ⟨-, -, rfl⟩⟩ := execExecr_cases h <;> rfl
  | rdrx n8 => obtain ⟨-, ⟨-, rfl⟩ | ⟨-, -, rfl⟩ | ⟨-, -, rfl⟩⟩ := execRdrx_cases h <;> rfl
  | rdstat => obtain ⟨-, h⟩ := whenIdle_next h; cases h; rfl

/-- The registers that no command writes. -/
theorem exec_frame {i : Instr} {s t : State} (h : exec i s = .next t) :
    t = { s with
      drvScl := t.drvScl, drvSda := t.drvSda, tb := t.tb, len := t.len, nreq := t.nreq, ph := t.ph, u := t.u,
      mode := t.mode, rsp := t.rsp } := by
  by_cases hi : i = .init
  · subst hi
    rw [exec_init_next h]
  · rw [exec_frame_of_ne_init hi h]

/-- `readRb` looks at the configuration and `RB` alone. -/
theorem readRb_congr {s t : State} (hc : t.cfg = s.cfg) (hr : t.rb = s.rb) (n : Nat) : readRb t n = readRb s n := by
  simp only [readRb, hc, hr]

/-- Settles O23: the frame of the commands, and `INIT` as the only one that writes a drive mode. -/
theorem commandsKeepLinesAndResults : Obligations.CommandsKeepLinesAndResults := by
  intro i s t h
  have hf := exec_frame h
  refine ⟨fun hi => ?_, readRb_congr (by rw [hf]) (by rw [hf]), by rw [hf], by rw [hf], by rw [hf]⟩
  rw [exec_frame_of_ne_init hi h]
  exact ⟨rfl, rfl⟩

/-! ### The host's turn and the block's turn -/

/-- All that the host's turn can do: nothing with no word offered; else the word goes, and is a command error or runs
as the command it decodes to (R91, R99). -/
theorem hostStep_cases {s t : State} (h : hostStep s = .next t) :
    (s.cmds = [] ∧ t = s) ∨
    (∃ w ws e, s.cmds = w :: ws ∧ decode s.cfg.variant w = .err e ∧ t = raiseCmdError e { s with cmds := ws }) ∨
    (∃ w ws i, s.cmds = w :: ws ∧ decode s.cfg.variant w = .ok i ∧ exec i { s with cmds := ws } = .next t) := by
  cases hc : s.cmds with
  | nil => rw [hostStep_nil hc] at h; cases h; exact .inl ⟨rfl, rfl⟩
  | cons w ws =>
    cases hd : decode s.cfg.variant w with
    | err e => rw [hostStep_of_err hc hd] at h; cases h; exact .inr (.inl ⟨w, ws, e, rfl, hd, rfl⟩)
    | ok i => rw [hostStep_of_decode hc hd] at h; exact .inr (.inr ⟨w, ws, i, rfl, hd, h⟩)

/-- The turn of the block's agent is the host's in `IDLE`, and a labelled step in any other phase (R93). -/
theorem blockStep_cases {s t : State} (h : blockStep s = .next t) :
    (s.ph = .idle ∧ hostStep s = .next t) ∨
    (s.ph ≠ .idle ∧ ∃ l, labelAt s.ph s.u = some l ∧ runLabel l s = .next t) := by
  by_cases hp : s.ph = .idle
  · rw [blockStep_idle hp] at h; exact .inl ⟨hp, h⟩
  · rw [blockStep_busy hp] at h; exact .inr ⟨hp, engineStep_cases h⟩

/-- What the turn of the block's agent finds: the state, but for the response, the pulls and the schedule. -/
theorem grant_frame {s g : State} (h : grant s = some g) :
    g = { s with rsp := none, sched := s.sched.tail, extScl := g.extScl, extSda := g.extSda, tick := g.tick } := by
  obtain ⟨hs, rfl⟩ | ⟨es, hs, rfl⟩ := grant_cases h
  · have ht : s.sched.tail = s.sched := by rw [hs]; rfl
    rw [ht]; rfl
  · rw [hs]; rfl

/-- All that one step of the machine can be, with the state it gives. -/
theorem step_cases {s t : State} (h : step s = .next t) :
    (∃ a b es, s.sched = .bus a b :: es ∧ t = busStep a b (clearRsp { s with sched := es })) ∨
    (∃ es, s.sched = .rst :: es ∧ t = resetBlock { s with sched := es }) ∨
    (∃ g, grant s = some g ∧ blockStep g = .next t) := by
  obtain ⟨a, b, es, hs, hb⟩ | ⟨es, hs, hr⟩ | ⟨g, hg, hb⟩ := step_shape s
  · rw [h] at hb; cases hb; exact .inl ⟨a, b, es, hs, rfl⟩
  · rw [h] at hr; cases hr; exact .inr (.inl ⟨es, hs, rfl⟩)
  · rw [h] at hb; exact .inr (.inr ⟨g, hg, hb.symm⟩)

/-! ### The end of a labelled step -/

/-- All labels but ten only go on to the next label of their list, and have one (R141). -/
theorem conclude_advance_or (l : Label) :
    ((∀ b s, conclude l b s = .next (advance s)) ∧ (labelAt l.home.1 (l.home.2 + 1)).isSome) ∨ l = .st4 ∨ l = .tx5 ∨
      l = .tx9 ∨ l = .ak2 ∨ l = .af0 ∨ l = .rx3 ∨ l = .rx5 ∨ l = .rx6 ∨ l = .rx17 ∨ l = .sp6 := by
  cases l <;> simp [conclude, labelAt, stepList, Label.home]

/-- `loadByte` either reads a byte of `TB` that exists, or gives no next state. -/
theorem loadByte_next {n : BitVec 6} {s t : State} (h : loadByte n s = .next t) :
    t = enterPhase .byteTransfer { s with k := n, sh := Memory.read s.tb n.toNat, i := 7 } := by
  by_cases hn : n.toNat < 33
  · rw [loadByte_ok hn] at h; cases h; rfl
  · simp [loadByte, readTb, hn] at h

/-- All that the dispatch after an acknowledged byte can do (R148, R149). -/
theorem dispatchAfterAck_cases {s t : State} (h : dispatchAfterAck s = .next t) :
    (s.mode = .w ∧ s.k.toNat + 1 < s.len.toNat ∧ loadByte (s.k + 1) s = .next t) ∨
    t = enterPhase .stop s ∨
    (s.mode = .r ∧ s.nreq ≠ 0 ∧ t = enterPhase .byteReceive { s with j := 0, i := 7 }) := by
  cases hm : s.mode with
  | w =>
    by_cases hk : s.k.toNat + 1 < s.len.toNat
    · rw [dispatchAfterAck_moreBytes hm hk] at h; exact .inl ⟨rfl, hk, h⟩
    · rw [dispatchAfterAck_lastByte hm hk] at h; cases h; exact .inr (.inl rfl)
  | r =>
    by_cases hn : s.nreq = 0
    · rw [dispatchAfterAck_readNone hm hn] at h; cases h; exact .inr (.inl rfl)
    · rw [dispatchAfterAck_read hm hn] at h; cases h; exact .inr (.inr ⟨rfl, hn, by rw [← hm]⟩)

/-- `RX6` either stores `SH` at index `J` of `RB`, or gives no next state (R155). -/
theorem storeReceived_next {s t : State} (h : storeReceived s = .next t) :
    s.j.toNat < 255 ∧ t = advance (writeRb s.j.toNat s.sh s) := by
  by_cases hj : s.j.toNat < 255
  · rw [storeReceived_ok hj] at h; cases h; exact ⟨hj, rfl⟩
  · simp [storeReceived, hj] at h

/-- `RX17` before the last byte begins the next one, in the phase it is in (R155). -/
theorem nextReceived_enter {s : State} (hp : s.ph = .byteReceive) (hj : s.j + 1 < s.nreq) :
    nextReceived s = enterPhase .byteReceive { s with j := s.j + 1, i := 7 } := by
  rw [nextReceived_more hj, ← hp]
  rfl

/-- The engine's step is the labelled step that the position names. -/
theorem engineStep_of_label {s : State} {l : Label} (h : labelAt s.ph s.u = some l) : engineStep s = runLabel l s := by
  simp only [engineStep, h]

/-- The ends that write `LASTOK`, `RXCNT` or `RB` are those of `AF0`, `SP6` and `RX6`; every other end keeps them, and
none writes `TB`, the configuration or what is outside the block (R34, R40, R62). -/
theorem conclude_frame {l : Label} {b : Bool} {s t : State} (h : conclude l b s = .next t) :
    (t = { s with
      ph := t.ph, u := t.u, k := t.k, i := t.i, j := t.j, sh := t.sh, ackf := t.ackf }) ∨
    t = takeAckFail s ∨ t = takeStopDone s ∨ (l = .rx6 ∧ t = advance (writeRb s.j.toNat s.sh s)) := by
  rcases conclude_advance_or l with ⟨ha, -⟩ | rfl | rfl | rfl | rfl | rfl | rfl | rfl | rfl | rfl | rfl
  · rw [ha] at h; cases h; exact .inl rfl
  · obtain rfl := loadByte_next (n := 0) h; exact .inl rfl
  · cases h; unfold nextBit; split <;> exact .inl rfl
  · cases h; cases b <;> exact .inl rfl
  · obtain ⟨-, -, h⟩ | rfl | ⟨-, -, rfl⟩ := dispatchAfterAck_cases h
    · obtain rfl := loadByte_next h; exact .inl rfl
    · exact .inl rfl
    · exact .inl rfl
  · cases h; exact .inr (.inl rfl)
  · cases h; exact .inl rfl
  · cases h; unfold nextBit; split <;> exact .inl rfl
  · exact .inr (.inr (.inr ⟨rfl, (storeReceived_next h).2⟩))
  · cases h; unfold nextReceived; split <;> exact .inl rfl
  · cases h; exact .inr (.inr (.inl rfl))

/-- A completed micro-operation changes the drive modes at most (R121 to R127). -/
theorem run_frame {o : MicroOp} {s m : State} {b : Bool} (h : o.run s = .done m b) :
    m = { s with drvScl := m.drvScl, drvSda := m.drvSda } := by
  obtain ⟨l, d, rfl, -⟩ | ⟨rfl, -⟩ := run_done_cases h
  · cases l <;> rfl
  · rfl

/-- No labelled step changes the configuration. -/
theorem runLabel_cfg {l : Label} {s t : State} (h : runLabel l s = .next t) : t.cfg = s.cfg := by
  obtain ⟨m, b, hm, hc⟩ | ⟨-, rfl⟩ := runLabel_cases h
  · have hms : m.cfg = s.cfg := by rw [run_frame hm]
    obtain hf | rfl | rfl | ⟨-, rfl⟩ := conclude_frame hc
    · rw [hf]; exact hms
    all_goals exact hms
  · rfl

/-- The turn of the block's agent keeps the configuration. -/
theorem blockStep_cfg {s t : State} (h : blockStep s = .next t) : t.cfg = s.cfg := by
  obtain ⟨-, h⟩ | ⟨-, l, -, h⟩ := blockStep_cases h
  · obtain ⟨-, rfl⟩ | ⟨w, ws, e, -, -, rfl⟩ | ⟨w, ws, i, -, -, h⟩ := hostStep_cases h
    · rfl
    · rfl
    · rw [exec_frame h]
  · exact runLabel_cfg h

/-- Settles O54: none of the agents writes the configuration. -/
theorem configurationIsFixed : Obligations.ConfigurationIsFixed := by
  intro s t h
  obtain ⟨a, b, es, -, rfl⟩ | ⟨es, -, rfl⟩ | ⟨g, hg, hb⟩ := step_cases h
  · rfl
  · rfl
  · rw [blockStep_cfg hb, grant_frame hg]

/-! ### Results -/

/-- `t` differs from `s` in its results only as an engine step or its absence allows: `LASTOK` and `RXCNT` at the end
of a transaction, `RXCNT` of a read, and `RB` at `RX6`, at index `J`, to `SH` (R34, R40, R62). -/
structure ResultsStep (s t : State) : Prop where
  cfg : t.cfg = s.cfg
  lastok : t.lastok ≠ s.lastok → s.ph ≠ .idle ∧ t.ph = .idle
  rxcnt : t.rxcnt ≠ s.rxcnt → s.ph ≠ .idle ∧ t.ph = .idle ∧ s.mode = .r
  rb : t.rb = s.rb ∨
    (labelAt s.ph s.u = some .rx6 ∧ s.j.toNat < 255 ∧ t.rb = Memory.write s.rb s.j.toNat s.sh)

/-- A step that writes none of the results. -/
theorem ResultsStep.of_kept {s t : State} (hc : t.cfg = s.cfg) (hl : t.lastok = s.lastok) (hx : t.rxcnt = s.rxcnt)
    (hr : t.rb = s.rb) : ResultsStep s t :=
  ⟨hc, fun h => absurd hl h, fun h => absurd hx h, .inl hr⟩

/-- The end of a transaction writes `LASTOK`, and `RXCNT` after a read. -/
theorem ResultsStep.of_end {s m : State} {e r ok : Bool} {v : Byte} {n : BitVec 8} (hp : s.ph ≠ .idle)
    (hm : m = { s with drvScl := m.drvScl, drvSda := m.drvSda }) :
    ResultsStep s (respond e r v (endTransaction ok n m)) := by
  rw [hm]
  refine ⟨rfl, fun _ => ⟨hp, rfl⟩, fun hx => ⟨hp, rfl, ?_⟩, .inl rfl⟩
  by_contra hmode
  exact hx (if_neg hmode)

/-- An engine step writes the results at the end of a transaction and at `RX6` alone. -/
theorem runLabel_results {l : Label} {s t : State} (hp : s.ph ≠ .idle) (hl : labelAt s.ph s.u = some l)
    (h : runLabel l s = .next t) : ResultsStep s t := by
  obtain ⟨m, b, hm, hc⟩ | ⟨-, rfl⟩ := runLabel_cases h
  · have hms := run_frame hm
    obtain hf | rfl | rfl | ⟨rfl, -⟩ := conclude_frame hc
    · exact .of_kept (by rw [hf, hms]) (by rw [hf, hms]) (by rw [hf, hms]) (by rw [hf, hms])
    · exact .of_end hp hms
    · exact .of_end hp hms
    · obtain ⟨hj, rfl⟩ := storeReceived_next ((runLabel_rx6 s).symm.trans h)
      exact ⟨rfl, fun h => absurd rfl h, fun h => absurd rfl h, .inr ⟨hl, hj, rfl⟩⟩
  · exact .of_kept rfl rfl rfl rfl

/-- A turn of the block's agent writes the results as an engine step does; a command writes none. -/
theorem blockStep_results {s t : State} (h : blockStep s = .next t) : ResultsStep s t := by
  obtain ⟨-, h⟩ | ⟨hp, l, hl, h⟩ := blockStep_cases h
  · obtain ⟨-, rfl⟩ | ⟨w, ws, e, -, -, rfl⟩ | ⟨w, ws, i, -, -, h⟩ := hostStep_cases h
    · exact .of_kept rfl rfl rfl rfl
    · exact .of_kept rfl rfl rfl rfl
    · have hf := exec_frame h
      exact .of_kept (by rw [hf]) (by rw [hf]) (by rw [hf]) (by rw [hf])
  · exact runLabel_results hp hl h

/-- A step without `rst` writes the results as an engine step does. -/
theorem step_results {s t : State} (hr : ∀ es, s.sched ≠ .rst :: es) (h : step s = .next t) : ResultsStep s t := by
  obtain ⟨a, b, es, -, rfl⟩ | ⟨es, hs, -⟩ | ⟨g, hg, hb⟩ := step_cases h
  · exact .of_kept rfl rfl rfl rfl
  · exact absurd hs (hr es)
  · have hres := blockStep_results hb
    rw [grant_frame hg] at hres
    exact ⟨hres.cfg, hres.lastok, hres.rxcnt, hres.rb⟩

/-- Settles O52: of the agents only the engine writes the results, and a write of one byte of `RB` leaves the other
bytes alone. -/
theorem resultsChangeOnlyByTheEngine : Obligations.ResultsChangeOnlyByTheEngine := by
  intro s t hr h
  have hres := step_results hr h
  refine ⟨hres.lastok, hres.rxcnt, fun n hn => ?_⟩
  obtain hrb | ⟨hl, hj, hrb⟩ := hres.rb
  · exact absurd (readRb_congr hres.cfg hrb n) hn
  · have hnj : n = s.j.toNat := by
      by_contra hne
      exact hn (by unfold readRb; rw [hrb, hres.cfg, Memory.read_write_other _ _ hne])
    subst hnj
    exact ⟨hl, rfl, by rw [readRb_eq hj, hrb, Memory.read_write_same]⟩

/-! ### Fixed facts -/

/-- Settles O13: each value is the one that `Block.reset` gives, and `STATUS` is computed from them. -/
theorem resetValues : Obligations.ResetValues :=
  ⟨rfl, rfl, rfl, rfl, rfl, rfl, rfl, rfl, rfl, rfl, rfl, rfl, by decide, by decide⟩

/-- Settles O27: `level` is the negation of the two pulls' disjunction. -/
theorem levelIsTheWiredAnd : Obligations.LevelIsTheWiredAnd := by
  intro s l
  constructor
  · rintro (h | h) <;> simp [level, h]
  · intro h
    obtain ⟨hd, he⟩ := not_or.1 h
    simp [level, hd, he]

end Machine
end Sys2Proof
end

section
/-! PROOFS. The invariant of R43: it holds after reset, and every step keeps it. A labelled step moves the position and
the drive modes as R160 says; the commands and the ten labels with an end of their own are taken one by one. -/

namespace Sys2Proof
namespace Machine

variable {s t m : State} {l l' : Label}

/-! ### Drive modes -/

/-- The drive modes are those that R160 gives for the label `l`. -/
structure DrivesAt (l : Label) (s : State) : Prop where
  scl : s.drvScl = (drivesAt l s).1
  sda : ∀ d ∈ (drivesAt l s).2, s.drvSda = d

theorem Inv.drivesAt (h : Inv s) (hl : labelAt s.ph s.u = some l) : DrivesAt l s :=
  ⟨h.drvScl_at hl, fun _ hd => h.drvSda_at hl hd⟩

theorem drivesOk_of_drivesAt (hl : labelAt s.ph s.u = some l) (h : DrivesAt l s) : drivesOk s = true := by
  have hd := h.sda
  cases he : (Machine.drivesAt l s).2 <;> simp_all [drivesOk, h.scl]

theorem drivesOk_idle (hp : s.ph = .idle) (hc : s.drvScl = .released) (hd : s.drvSda = .released) :
    drivesOk s = true := by
  simp [drivesOk, hp, hc, hd]

/-- What a line event makes of the drive modes (R130). -/
def applyEvent : Option (Line × Drive) → State → State
  | none, s => s
  | some (l, d), s => setDrive l d s

/-- The drive modes that R160 asks for depend on no drive mode. -/
theorem drivesAt_applyEvent (e : Option (Line × Drive)) : drivesAt l (applyEvent e s) = drivesAt l s := by
  rcases e with _ | ⟨_ | _, _⟩ <;> rfl

@[simp] theorem applyEvent_ph (e : Option (Line × Drive)) : (applyEvent e s).ph = s.ph := by
  rcases e with _ | ⟨_ | _, _⟩ <;> rfl

@[simp] theorem applyEvent_u (e : Option (Line × Drive)) : (applyEvent e s).u = s.u := by
  rcases e with _ | ⟨_ | _, _⟩ <;> rfl

/-- A completed micro-operation does what its line event says, and nothing else. -/
theorem run_done_eq {o : MicroOp} {b : Bool} (h : o.run s = .done m b) : m = applyEvent o.lineEvent s := by
  obtain ⟨l, d, rfl, he⟩ | ⟨rfl, he⟩ := run_done_cases h <;> rw [he] <;> rfl

/-- R160: from the drive modes of a label its line event leads to those of the next label in the list. -/
theorem DrivesAt.next (h : DrivesAt l s) (hn : labelAt l.home.1 (l.home.2 + 1) = some l') :
    DrivesAt l' (applyEvent (microOp l s).lineEvent s) := by
  obtain ⟨hc, hd⟩ := h
  cases l <;> cases hn
  case tx0 => exact ⟨hc, fun _ => Option.some.inj⟩
  case rx8 =>
    by_cases hb : lastByte s <;> constructor <;>
      simp_all [Machine.drivesAt, microOp, applyEvent, MicroOp.lineEvent, ackDrive, lastByte]
  all_goals constructor <;> rw [drivesAt_applyEvent] <;>
    simp_all [Machine.drivesAt, microOp, applyEvent, MicroOp.lineEvent]

/-! ### The invariant in `IDLE` -/

/-- The invariant depends on the block and the configuration alone. -/
theorem Inv.congr (h : Inv s) (hb : t.toBlock = s.toBlock) (hc : t.cfg = s.cfg) : Inv t := by
  cases s; cases t
  cases hb; cases hc
  exact { h with }

theorem Inv.respond (h : Inv s) (e r : Bool) (v : Byte) : Inv (respond e r v s) := h.congr rfl rfl

/-- What the invariant says of a block in `IDLE`. -/
theorem Inv.of_idle (hp : s.ph = .idle) (hc : s.drvScl = .released) (hd : s.drvSda = .released)
    (hl : s.len.toNat ≤ s.cfg.capacity) (hdir : 1 ≤ s.len.toNat → bitAt (Memory.read s.tb 0) 0 = false)
    (hwo : s.cfg.variant = .wo → s.mode = .w ∧ s.rxcnt = 0)
    (htb : Memory.wf s.cfg.capacity s.tb) (hrb : Memory.wf s.cfg.rxCapacity s.rb) : Inv s where
  lenLe := hl
  position := .inl hp
  drives := drivesOk_idle hp hc hd
  hasAddress h := absurd hp h
  kBound h := by simp [hp, transmitting] at h
  kRead h := by simp [hp, transmitting] at h
  shCopy h := by simp [hp] at h
  jBound h := by simp [hp] at h
  direction h := by simpa [hp] using hdir h
  writeOnly := hwo
  tbWf := htb
  rbWf := hrb

/-- The stored direction bit of a block in `IDLE` is write (R189). -/
theorem Inv.direction_idle (h : Inv s) (hp : s.ph = .idle) (hl : 1 ≤ s.len.toNat) :
    bitAt (Memory.read s.tb 0) 0 = false := by
  simpa [hp] using h.direction hl

/-- The stored direction bit of a running transaction is its mode (R189). -/
theorem Inv.direction_busy (h : Inv s) (hp : s.ph ≠ .idle) (hl : 1 ≤ s.len.toNat) :
    bitAt (Memory.read s.tb 0) 0 = decide (s.mode = .r) := by
  simpa [hp] using h.direction hl

/-- A buffer that is not empty holds the address byte. -/
theorem len_pos (h : s.len ≠ 0) : 0 < s.len.toNat :=
  Nat.pos_of_ne_zero fun h0 => h (BitVec.eq_of_toNat_eq h0)

/-- A block with the values of R44 meets the invariant, whatever is around it. -/
theorem Inv.of_reset (hb : s.toBlock = Block.reset) : Inv s := by
  cases s
  cases hb
  exact .of_idle rfl rfl rfl (Nat.zero_le _) (fun h => absurd h (Nat.not_succ_le_zero 0)) (fun _ => ⟨rfl, rfl⟩) rfl rfl

/-- Settles O46: the state after reset holds the block that `Block.reset` gives. -/
theorem resetMeetsTheInvariant : Obligations.ResetMeetsTheInvariant := Inv.of_reset rfl

/-! ### Commands keep the invariant -/

/-- A write of `TB` in `IDLE` that leaves the direction bit at write, with the `LEN` that goes with it. -/
theorem Inv.buffered (h : Inv s) (hp : s.ph = .idle) {n : BitVec 6} {a : Nat} {v : Byte} (ha : a < 33)
    (hn : n.toNat ≤ 33) (hv : bitAt (Memory.read (Memory.write s.tb a v) 0) 0 = false) :
    Inv (setLen n (writeTb a v s)) := by
  obtain ⟨hc, hd⟩ := h.released_idle hp
  exact .of_idle hp hc hd hn (fun _ => hv) h.writeOnly (Memory.wf_write v h.tbWf ha) h.rbWf

/-- The start of a transaction with an address in the buffer, whose direction bit is that of its mode (R188, R191). -/
theorem Inv.started (h : Inv s) (hp : s.ph = .idle) (hl : s.len ≠ 0) {x : XferMode} {n : BitVec 8} {tb : Memory}
    (hx : s.cfg.variant = .wo → x = .w) (htb : Memory.wf s.cfg.capacity tb)
    (hv : bitAt (Memory.read tb 0) 0 = decide (x = .r)) :
    Inv { s with tb := tb, nreq := n, mode := x, ph := .start, u := 0 } where
  lenLe := h.lenLe
  position := .inr rfl
  drives := by
    obtain ⟨hc, hd⟩ := h.released_idle hp
    exact drivesOk_of_drivesAt (l := .st0) rfl ⟨hc, fun _ he => Option.some.inj he ▸ hd⟩
  hasAddress _ := len_pos hl
  kBound := nofun
  kRead := nofun
  shCopy := nofun
  jBound := nofun
  direction _ := hv
  writeOnly hw := ⟨hx hw, (h.writeOnly hw).2⟩
  tbWf := htb
  rbWf := h.rbWf

/-- Every command keeps the invariant. -/
theorem exec_inv {i : Instr} (h : Inv s) (he : exec i s = .next t) : Inv t := by
  cases i with
  | init =>
    obtain ⟨hp, he⟩ := whenIdle_next he
    cases he
    exact .of_idle hp rfl rfl h.lenLe (h.direction_idle hp) h.writeOnly h.tbWf h.rbWf
  | setaddr a7 =>
    obtain ⟨hp, he⟩ := whenIdle_next he
    cases he
    refine ((h.buffered (n := 1) hp (by decide) (by decide) ?_).congr rfl rfl)
    rw [Memory.read_write_same]
    exact bitAt_addressByte_zero a7
  | append b8 =>
    obtain ⟨hp, ⟨-, rfl⟩ | ⟨h0, hl, rfl⟩ | ⟨-, -, rfl⟩⟩ := execAppend_cases he
    · exact h.respond ..
    · have hl' : s.len.toNat < 33 := hl
      refine (h.buffered hp hl' ?_ ?_).respond ..
      · rw [BitVec.toNat_add]; exact (Nat.mod_le _ _).trans hl'
      · rw [Memory.read_write_other _ _ (len_pos h0).ne]
        exact h.direction_idle hp (len_pos h0)
    · exact h.respond ..
  | execw =>
    obtain ⟨hp, ⟨-, rfl⟩ | ⟨h0, -, rfl⟩ | ⟨h0, -, rfl⟩⟩ := execExecw_cases he
    · exact h.respond ..
    · refine h.started hp h0 (fun _ => rfl) (Memory.wf_write _ h.tbWf (by simp)) ?_
      exact (congrArg (bitAt · 0) (Memory.read_write_same ..)).trans (bitAt_withDirWrite_zero _)
    · exact h.started hp h0 (fun _ => rfl) h.tbWf (h.direction_idle hp (len_pos h0))
  | execr n8 =>
    obtain ⟨hp, ⟨-, rfl⟩ | ⟨-, -, rfl⟩ | ⟨hv, h0, rfl⟩⟩ := execExecr_cases he
    · exact h.respond ..
    · exact h.respond ..
    · refine h.started hp h0 (fun hw => ?_) (Memory.wf_write _ h.tbWf (by simp)) ?_
      · rw [hv] at hw; cases hw
      · exact (congrArg (bitAt · 0) (Memory.read_write_same ..)).trans (bitAt_withDirRead_zero _)
  | rdrx n8 =>
    obtain ⟨-, ⟨-, rfl⟩ | ⟨-, -, rfl⟩ | ⟨-, -, rfl⟩⟩ := execRdrx_cases he <;> exact h.respond ..
  | rdstat =>
    obtain ⟨-, he⟩ := whenIdle_next he
    cases he
    exact h.respond ..

/-- The host's turn keeps the invariant. -/
theorem hostStep_inv (h : Inv s) (hs : hostStep s = .next t) : Inv t := by
  obtain ⟨-, rfl⟩ | ⟨w, ws, e, -, -, rfl⟩ | ⟨w, ws, i, -, -, he⟩ := hostStep_cases hs
  · exact h
  · exact h.congr rfl rfl
  · exact exec_inv (s := { s with cmds := ws }) (h.congr rfl rfl) he

/-! ### Labelled steps keep the invariant -/

/-- The engine moves to another label of the same phase, with a line event or none. -/
theorem Inv.moved (h : Inv s) (e : Option (Line × Drive)) {v : BitVec 5} {n : BitVec 3} (hl : labelAt s.ph v = some l)
    (hd : DrivesAt l { applyEvent e s with u := v, i := n }) : Inv { applyEvent e s with u := v, i := n } := by
  rcases e with _ | ⟨_ | _, d⟩ <;> exact
    { h with
      position := .inr (Option.isSome_iff_exists.2 ⟨l, hl⟩)
      drives := drivesOk_of_drivesAt hl hd }

/-- The engine goes on to the next label after the line event of this one. -/
theorem Inv.advanced (h : Inv s) (hl : labelAt s.ph s.u = some l)
    (hn : (labelAt l.home.1 (l.home.2 + 1)).isSome) : Inv (advance (applyEvent (microOp l s).lineEvent s)) := by
  obtain ⟨l', hn⟩ := Option.isSome_iff_exists.1 hn
  have hd := (h.drivesAt hl).next hn
  obtain ⟨hp, hu⟩ := labelAt_iff.1 hl
  rw [← hp, ← hu] at hn
  generalize (microOp l s).lineEvent = e at hd ⊢
  rcases e with _ | ⟨_ | _, d⟩
  · exact h.moved none hn ⟨hd.scl, hd.sda⟩
  · exact h.moved (some (.scl, d)) hn ⟨hd.scl, hd.sda⟩
  · exact h.moved (some (.sda, d)) hn ⟨hd.scl, hd.sda⟩

/-- The end of a transmitted bit: `SCL` is low, and the loop goes on or ends (R144). -/
theorem Inv.bitSent (h : Inv s) (hl : labelAt s.ph s.u = some .tx5) : Inv (nextBit s) := by
  have hp := (labelAt_iff.1 hl).1
  have hc := (h.drivesAt hl).scl
  by_cases hi : s.i = 0
  · rw [nextBit_last hi]
    exact h.moved none (l := .tx6) (by rw [hp]; rfl) ⟨hc, nofun⟩
  · rw [nextBit_more hi]
    exact h.moved none (l := .tx0) (by rw [hp]; rfl) ⟨hc, nofun⟩

/-- The end of a received bit: `SCL` is driven low, and the loop goes on or ends (R153). -/
theorem Inv.bitReceived (h : Inv s) (hl : labelAt s.ph s.u = some .rx5) : Inv (nextBit (driveLow .scl s)) := by
  have hp := (labelAt_iff.1 hl).1
  have hd := (h.drivesAt hl).sda
  by_cases hi : s.i = 0
  · rw [nextBit_last (s := driveLow .scl s) hi]
    exact h.moved (some (.scl, .drivenLow)) (l := .rx6) (by rw [hp]; rfl) ⟨rfl, hd⟩
  · rw [nextBit_more (s := driveLow .scl s) hi]
    exact h.moved (some (.scl, .drivenLow)) (l := .rx0) (by rw [hp]; rfl) ⟨rfl, hd⟩

/-- The sample of a data bit goes into `SH` (R153). -/
theorem Inv.bitSampled (h : Inv s) (hl : labelAt s.ph s.u = some .rx3) (v : Byte) :
    Inv (advance { s with sh := v }) := by
  obtain ⟨hp, hu⟩ := labelAt_iff.1 hl
  have hd := h.drivesAt hl
  exact { h.advanced hl rfl with
    drives := drivesOk_of_drivesAt (l := .rx4) (by simp only [advance_ph, advance_u, hp, hu]; rfl) ⟨hd.scl, hd.sda⟩
    shCopy := fun hb => by cases hp.symm.trans hb }

/-- A received byte goes into `RB` (R155). -/
theorem Inv.byteStored (h : Inv s) (hl : labelAt s.ph s.u = some .rx6) (hj : s.j.toNat < 255) :
    Inv (advance (writeRb s.j.toNat s.sh s)) :=
  { h.advanced hl rfl with rbWf := Memory.wf_write _ h.rbWf hj }

/-- The load of a byte of the buffer (R142, R148). -/
theorem Inv.loaded (h : Inv s) (hp : s.ph ≠ .idle) (hc : s.drvScl = .drivenLow) {n : BitVec 6} (hn : n < s.len)
    (hr : s.mode = .r → n = 0) :
    Inv (enterPhase .byteTransfer { s with k := n, sh := Memory.read s.tb n.toNat, i := 7 }) where
  lenLe := h.lenLe
  position := .inr rfl
  drives := drivesOk_of_drivesAt (l := .tx0) rfl ⟨hc, nofun⟩
  hasAddress _ := h.hasAddress hp
  kBound _ := hn
  kRead _ := hr
  shCopy _ := readTb_eq (lt_of_lt_of_le (BitVec.lt_def.1 hn) h.lenLe)
  jBound := nofun
  direction := h.direction_busy hp
  writeOnly := h.writeOnly
  tbWf := h.tbWf
  rbWf := h.rbWf

/-- The entry of a phase other than `BYTE_TRANSFER` at its first label; `I`, `J` and `ACKF` may be written on the
way. -/
theorem Inv.entered (h : Inv s) (hb : s.ph ≠ .idle) {p : Phase} {i : BitVec 3} {j : BitVec 8} {b : Bool}
    (hl : labelAt p 0 = some l) (hd : DrivesAt l (enterPhase p { s with i := i, j := j, ackf := b }))
    (hs : transmitting p → transmitting s.ph) (hp : p ≠ .byteTransfer)
    (hj : p = .byteReceive → s.mode = .r ∧ j < s.nreq) : Inv (enterPhase p { s with i := i, j := j, ackf := b }) :=
  { h with
    position := .inr (Option.isSome_iff_exists.2 ⟨l, hl⟩)
    drives := drivesOk_of_drivesAt hl hd
    hasAddress := fun _ => h.hasAddress hb
    kBound := fun hx => h.kBound (hs hx)
    kRead := fun hx => h.kRead (hs hx)
    shCopy := fun hx => absurd hx hp
    jBound := hj
    direction := fun hx => by
      have hi : p ≠ .idle := by rintro rfl; rw [labelAt_idle] at hl; cases hl
      refine (h.direction_busy hb hx).trans ?_
      show _ = (!decide (p = .idle) && decide (s.mode = .r))
      rw [decide_eq_false hi]
      rfl }

/-- The sample of an acknowledgment (R145). -/
theorem Inv.sampled (h : Inv s) (hl : labelAt s.ph s.u = some .tx9) (b : Bool) : Inv (takeAckSample b s) := by
  have hp : s.ph = .byteTransfer := (labelAt_iff.1 hl).1
  have hb : s.ph ≠ .idle := by simp [hp]
  have hs : transmitting s.ph = true := by simp [hp, transmitting]
  have hd := h.drivesAt hl
  cases b
  case false => exact h.entered (p := .ackOk) (l := .ak0) hb rfl ⟨hd.scl, hd.sda⟩ (fun _ => hs) nofun nofun
  case true => exact h.entered (p := .ackFail) (l := .af0) hb rfl ⟨hd.scl, hd.sda⟩ (fun _ => hs) nofun nofun

/-- The entry of STOP (R149, R155). -/
theorem Inv.stopping (h : Inv s) (hb : s.ph ≠ .idle) (hd : DrivesAt .sp0 s) (n : BitVec 8) :
    Inv (enterPhase .stop { s with j := n }) :=
  h.entered (p := .stop) (l := .sp0) hb rfl ⟨hd.scl, hd.sda⟩ nofun nofun nofun

/-- The first bit of a received byte (R149, R155). -/
theorem Inv.receiving (h : Inv s) (hb : s.ph ≠ .idle) (hd : DrivesAt .rx0 s) (hm : s.mode = .r) {n : BitVec 8}
    (hn : n < s.nreq) : Inv (enterPhase .byteReceive { s with j := n, i := 7 }) :=
  h.entered (p := .byteReceive) (l := .rx0) hb rfl ⟨hd.scl, hd.sda⟩ nofun nofun fun _ => ⟨hm, hn⟩

/-- The end of a transaction with both lines released (R152, R158). -/
theorem Inv.ended (h : Inv s) (hc : s.drvScl = .released) (hd : s.drvSda = .released) (ok : Bool) (n : BitVec 8) :
    Inv (endTransaction ok n s) := by
  refine .of_idle rfl hc hd (Nat.zero_le _) (fun h => absurd h (Nat.not_succ_le_zero 0)) (fun hw => ?_) h.tbWf h.rbWf
  obtain ⟨hm, hx⟩ := h.writeOnly hw
  exact ⟨hm, by simp [hm, hx]⟩

/-- The dispatch after an acknowledged byte (R148, R149). -/
theorem dispatchAfterAck_inv (h : Inv s) (hl : labelAt s.ph s.u = some .ak2) (hs : dispatchAfterAck s = .next t) :
    Inv t := by
  have hp : s.ph ≠ .idle := by simp [(labelAt_iff.1 hl).1, Label.home]
  have hd := h.drivesAt hl
  obtain ⟨hm, hk, hs⟩ | rfl | ⟨hm, hn, rfl⟩ := dispatchAfterAck_cases hs
  · obtain rfl := loadByte_next hs
    refine h.loaded hp hd.scl ?_ fun hr => by simp [hm] at hr
    rw [BitVec.lt_def, BitVec.toNat_add]
    exact (Nat.mod_le _ _).trans_lt hk
  · exact h.stopping hp ⟨hd.scl, hd.sda⟩ s.j
  · exact h.receiving hp ⟨hd.scl, hd.sda⟩ hm ((BitVec.pos_iff_ne_zero _).2 hn)

/-- `RX17`: the next byte, or STOP after the last (R155). -/
theorem nextReceived_inv (h : Inv s) (hl : labelAt s.ph s.u = some .rx17) : Inv (nextReceived s) := by
  have hp : s.ph = .byteReceive := (labelAt_iff.1 hl).1
  have hb : s.ph ≠ .idle := by simp [hp]
  have hd := h.drivesAt hl
  by_cases hj : s.j + 1 < s.nreq
  · rw [nextReceived_enter hp hj]
    exact h.receiving hb ⟨hd.scl, hd.sda⟩ (h.jBound hp).1 hj
  · rw [nextReceived_last hj]
    exact h.stopping hb ⟨hd.scl, hd.sda⟩ _

/-- Every labelled step keeps the invariant. -/
theorem runLabel_inv (h : Inv s) (hl : labelAt s.ph s.u = some l) (hs : runLabel l s = .next t) : Inv t := by
  have hd := h.drivesAt hl
  obtain ⟨hp, hu⟩ := labelAt_iff.1 hl
  obtain ⟨m, b, hm, hc⟩ | ⟨-, rfl⟩ := runLabel_cases hs
  · have hme := run_done_eq hm
    rcases conclude_advance_or l with ⟨ha, hn⟩ | rfl | rfl | rfl | rfl | rfl | rfl | rfl | rfl | rfl | rfl
    case inl =>
      rw [ha] at hc
      cases hc
      rw [hme]
      exact h.advanced hl hn
    · obtain rfl := loadByte_next ((runLabel_st4 s).symm.trans hs)
      refine h.loaded (by simp [hp, Label.home]) hd.scl ?_ fun _ => rfl
      exact h.hasAddress (by simp [hp, Label.home])
    · cases hs
      exact h.bitSent hl
    · cases hc
      subst hme
      exact h.sampled hl b
    · exact dispatchAfterAck_inv h hl ((runLabel_ak2 s).symm.trans hs)
    · cases hs
      exact (h.ended hd.scl (hd.sda _ rfl) ..).respond ..
    · cases hc
      subst hme
      exact h.bitSampled hl _
    · cases hs
      exact h.bitReceived hl
    · obtain ⟨hj, rfl⟩ := storeReceived_next ((runLabel_rx6 s).symm.trans hs)
      exact h.byteStored hl hj
    · cases hs
      exact nextReceived_inv h hl
    · cases hs
      exact (h.ended hd.scl (hd.sda _ rfl) ..).respond ..
  · exact h

/-- The turn of the block's agent keeps the invariant. -/
theorem blockStep_inv (h : Inv s) (hs : blockStep s = .next t) : Inv t := by
  obtain ⟨-, hs⟩ | ⟨-, l, hl, hs⟩ := blockStep_cases hs
  · exact hostStep_inv h hs
  · exact runLabel_inv h hl hs

/-- Settles O47, by the agent that moves: `BUS` leaves the block alone, `rst` gives the block of R44, and the block's
agent runs a command or a labelled step. -/
theorem everyStepKeepsTheInvariant : Obligations.EveryStepKeepsTheInvariant := by
  intro s t h hs
  obtain ⟨a, b, es, -, rfl⟩ | ⟨es, -, rfl⟩ | ⟨g, hg, hb⟩ := step_cases hs
  · exact h.congr rfl rfl
  · exact .of_reset rfl
  · have hgi : Inv g := by
      rw [grant_frame hg]
      exact h.congr rfl rfl
    exact blockStep_inv hgi hb

end Machine
end Sys2Proof
end

section
/-! PROOFS. Registers whose value is left open cannot matter: two states that `SameLive` relates take the same step, to
states that it relates again. Commands first, then micro-operations, then the ends of the labelled steps. -/

namespace Sys2Proof
namespace Machine

variable {s t : State} {l : Label}

/-- When the one outcome is a next state, so is the other, and the two states are alike in all that can matter. -/
def SameNext (o o' : Host.Outcome State Fault Refusal) : Prop :=
  ∀ s', o = .next s' → ∃ t', o' = .next t' ∧ SameLive s' t'

theorem SameNext.next (h : SameLive s t) : SameNext (.next s) (.next t) := by
  rintro _ ⟨⟩
  exact ⟨t, rfl, h⟩

/-! ### The bytes of `RB` that can be returned -/

theorem rbLive_idle {n : Nat} (hp : s.ph = .idle) : rbLive s n ↔ n < s.rxcnt.toNat := by
  simp [rbLive, hp]

theorem rbLive_sending {n : Nat} (hp : s.ph = .start ∨ transmitting s.ph = true) :
    rbLive s n ↔ s.mode = .w ∧ n < s.rxcnt.toNat := by
  cases hs : s.ph <;> cases hm : s.mode <;> simp_all [rbLive, transmitting]

theorem rbLive_receiving {n : Nat} (hp : s.ph = .byteReceive) :
    rbLive s n ↔ n < if s.u ≤ 6 then s.j.toNat else s.j.toNat + 1 := by
  simp only [rbLive, hp]
  split <;> rfl

theorem rbLive_stopping {n : Nat} (hp : s.ph = .stop) :
    rbLive s n ↔ n < (if s.mode = .r then s.nreq else s.rxcnt).toNat := by
  cases hm : s.mode <;> simp [rbLive, hp, hm]

/-- Only `RX6` adds a byte to those that can be returned while the position goes on within a phase. -/
theorem rbLive_of_advance {n : Nat} (h6 : s.ph = .byteReceive → s.u ≠ 6) (h : rbLive (advance s) n) : rbLive s n := by
  by_cases hp : s.ph = .byteReceive
  · rw [rbLive_receiving hp]
    rw [rbLive_receiving (s := advance s) hp] at h
    have := h6 hp
    by_cases hu : s.u ≤ 6
    · have hu' : (Machine.advance s).u ≤ 6 := by rw [advance_u]; bv_omega
      rw [if_pos hu]
      rwa [if_pos hu'] at h
    · rw [if_neg hu]
      split at h
      · exact h.trans (Nat.lt_succ_self _)
      · exact h
  · cases hs : s.ph <;> simp_all [rbLive]

/-! ### Commands -/

theorem SameLive.respond (h : SameLive s t) (e r : Bool) (v : Byte) :
    SameLive (respond e r v s) (respond e r v t) := { h with rsp := rfl }

/-- A write of `TB` and `LEN` in `IDLE`, with a byte below the new `LEN` that was below the old one or is written. -/
theorem SameLive.buffered (h : SameLive s t) {a : Nat} {v : Byte} {n : BitVec 6}
    (hn : ∀ b, b < n.toNat → b ≠ a → b < s.len.toNat) :
    SameLive (setLen n (writeTb a v s)) (setLen n (writeTb a v t)) :=
  { h with
    len := rfl
    tb := fun b hb => by
      by_cases hba : b = a
      · simp [hba]
      · simp [Memory.read_write_other _ _ hba, h.tb b (hn b hb hba)] }

/-- The start of a transaction, with a Transfer Buffer that agrees below `LEN`. -/
theorem SameLive.started (h : SameLive s t) (hp : s.ph = .idle) {x : XferMode} {p q : Memory} {m n : BitVec 8}
    (htb : ∀ a, a < s.len.toNat → Memory.read p a = Memory.read q a) (hn : x = .r → m = n) :
    SameLive { s with tb := p, nreq := m, mode := x, ph := .start, u := 0 }
      { t with tb := q, nreq := n, mode := x, ph := .start, u := 0 } :=
  { h with
    ph := rfl
    tb := htb
    rb := fun a ha => h.rb a ((rbLive_idle hp).2 ((rbLive_sending (.inl rfl)).1 ha).2)
    running := fun _ => ⟨rfl, rfl, hn⟩
    loaded := fun _ hs => absurd rfl hs
    receiving := nofun }

/-- A write of the address byte, which both read alike, keeps the bytes below `LEN` alike. -/
theorem SameLive.tb_writeAddress (h : SameLive s t) (f : Byte → Byte) (a : Nat)
    (ha : a < s.len.toNat) :
    Memory.read (Memory.write s.tb 0 (f (Memory.read s.tb 0))) a =
      Memory.read (Memory.write t.tb 0 (f (Memory.read t.tb 0))) a := by
  by_cases h0 : a = 0
  · subst h0
    simp [h.tb 0 ha]
  · rw [Memory.read_write_other _ _ h0, Memory.read_write_other _ _ h0, h.tb a ha]

/-- A command run in two states that are alike in all that can matter. -/
theorem exec_sameNext (i : Instr) (h : SameLive s t) (hp : s.ph = .idle) : SameNext (exec i s) (exec i t) := by
  have hp' : t.ph = .idle := h.ph ▸ hp
  cases i with
  | init =>
    simp only [exec, execInit, whenIdle_idle hp, whenIdle_idle hp']
    exact .next { h with drvScl := rfl, drvSda := rfl, rsp := rfl }
  | setaddr a7 =>
    simp only [exec, execSetaddr, whenIdle_idle hp, whenIdle_idle hp']
    have h0 : SameLive (setLen 0 s) (setLen 0 t) := { h with len := rfl, tb := nofun }
    refine .next ((h0.buffered ?_).respond ..)
    intro b hb hne
    exact absurd (Nat.lt_one_iff.1 hb) hne
  | append b8 =>
    simp only [exec, execAppend, whenIdle_idle hp, whenIdle_idle hp', ← h.len, ← h.cfg]
    split
    · exact .next (h.respond ..)
    · split
      · refine .next ((h.buffered ?_).respond ..)
        intro b hb hne
        bv_omega
      · exact .next (h.respond ..)
  | execw =>
    simp only [exec, execExecw, whenIdle_idle hp, whenIdle_idle hp', ← h.len, ← h.cfg]
    split
    · exact .next (h.respond ..)
    · split
      · exact .next (h.started hp (h.tb_writeAddress withDirWrite) nofun)
      · exact .next (h.started hp h.tb nofun)
  | execr n8 =>
    simp only [exec, execExecr, whenIdle_idle hp, whenIdle_idle hp', ← h.len, ← h.cfg]
    split
    · exact .next (h.respond ..)
    · split
      · exact .next (h.respond ..)
      · exact .next (h.started hp (h.tb_writeAddress withDirRead) fun _ => rfl)
  | rdrx n8 =>
    simp only [exec, execRdrx, whenIdle_idle hp, whenIdle_idle hp', ← h.rxcnt, ← h.cfg]
    split
    · exact .next (h.respond ..)
    · split
      · exact .next (h.respond ..)
      · rename_i hn
        rw [h.rb n8.toNat ((rbLive_idle hp).2 (by simpa [BitVec.le_def] using hn))]
        exact .next (h.respond ..)
  | rdstat =>
    simp only [exec, execRdstat, whenIdle_idle hp, whenIdle_idle hp']
    have hst : status s = status t := by
      simp only [status, rwVariant, addressValid, h.cfg, h.lastok, h.len]
    rw [hst]
    exact .next (h.respond ..)

/-- The host's turn in two states that are alike in all that can matter. -/
theorem hostStep_sameNext (h : SameLive s t) (hp : s.ph = .idle) : SameNext (hostStep s) (hostStep t) := by
  cases hc : s.cmds with
  | nil =>
    rw [hostStep_nil hc, hostStep_nil (h.cmds ▸ hc)]
    exact .next h
  | cons w ws =>
    have hw : SameLive { s with cmds := ws } { t with cmds := ws } := { h with cmds := rfl }
    cases hd : decode s.cfg.variant w with
    | err e =>
      rw [hostStep_of_err hc hd, hostStep_of_err (h.cmds ▸ hc) (h.cfg ▸ hd)]
      exact .next (hw.respond ..)
    | ok i =>
      rw [hostStep_of_decode hc hd, hostStep_of_decode (h.cmds ▸ hc) (h.cfg ▸ hd)]
      exact exec_sameNext i hw hp

/-! ### Micro-operations -/

theorem SameLive.driveOf_eq (h : SameLive s t) (x : Line) : driveOf s x = driveOf t x := by
  cases x
  · exact h.drvScl
  · exact h.drvSda

theorem SameLive.level_eq (h : SameLive s t) (x : Line) : level s x = level t x := by
  have he : extOf s x = extOf t x := by
    cases x
    · exact h.extScl
    · exact h.extSda
  simp only [level, h.driveOf_eq x, he]

theorem SameLive.applyEvent (h : SameLive s t) (e : Option (Line × Drive)) :
    SameLive (applyEvent e s) (applyEvent e t) := by
  rcases e with _ | ⟨_ | _, d⟩
  · exact h
  · exact { h with drvScl := rfl }
  · exact { h with drvSda := rfl }

/-- A micro-operation ends in the same way in both states, with the same sample. -/
theorem SameLive.run (h : SameLive s t) (o : MicroOp) :
    (∃ b, o.run s = .done (Machine.applyEvent o.lineEvent s) b ∧ o.run t = .done (Machine.applyEvent o.lineEvent t) b) ∨
    (o.run s = .held ∧ o.run t = .held) ∨ (o.run s = .refused ∧ o.run t = .refused) := by
  cases o with
  | sample x =>
    simp only [MicroOp.run, sample, ← h.driveOf_eq x, ← h.level_eq x]
    split
    · exact .inl ⟨_, rfl, rfl⟩
    · exact .inr (.inr ⟨rfl, rfl⟩)
  | waitH x =>
    simp only [MicroOp.run, waitHigh, ← h.driveOf_eq x, ← h.level_eq x]
    split
    · split
      · exact .inl ⟨_, rfl, rfl⟩
      · exact .inr (.inl ⟨rfl, rfl⟩)
    · exact .inr (.inr ⟨rfl, rfl⟩)
  | dl x => exact .inl ⟨_, rfl, rfl⟩
  | rl x => exact .inl ⟨_, rfl, rfl⟩
  | setSda b => exact .inl ⟨_, rfl, rfl⟩
  | dly d => exact .inl ⟨_, rfl, rfl⟩
  | book => exact .inl ⟨_, rfl, rfl⟩

/-- The micro-operation of a label looks at no register but `SH` and `I` at `TX0`, and `J` and `NREQ` at `RX8`. -/
theorem microOp_eq_or (l : Label) (s t : State) : microOp l s = microOp l t ∨ l = .tx0 ∨ l = .rx8 := by
  cases l <;> simp [microOp]

/-- Both states have the same micro-operation at a label. -/
theorem SameLive.microOp_eq (h : SameLive s t) (hi : Inv s) (hl : labelAt s.ph s.u = some l) :
    microOp l s = microOp l t := by
  have hp := (labelAt_iff.1 hl).1
  obtain he | rfl | rfl := microOp_eq_or l s t
  · exact he
  · obtain ⟨-, hi, hs⟩ := h.loaded (by simp [hp, Label.home]) (by simp [hp, Label.home])
    simp only [microOp, hi, hs]
  · have hn := (h.running (by simp [hp, Label.home])).2.2 (hi.jBound hp).1
    have hlast : lastByte s = lastByte t := by unfold lastByte; rw [h.receiving hp, hn]
    simp only [microOp, hlast]

theorem runLabel_of_done {o : MicroOp} {m : State} {b : Bool} (ho : microOp l s = o) (h : o.run s = .done m b) :
    runLabel l s = conclude l b m := by
  simp only [Machine.runLabel, ho, h]

theorem runLabel_of_held {o : MicroOp} (ho : microOp l s = o) (h : o.run s = .held) : runLabel l s = .next s := by
  simp only [Machine.runLabel, ho, h]

theorem runLabel_of_refused {o : MicroOp} (ho : microOp l s = o) (h : o.run s = .refused) :
    runLabel l s = .refused .readOfDrivenLine := by
  simp only [Machine.runLabel, ho, h]

/-- A labelled step is alike in both states when its end is, after the same line event and with the same sample. -/
theorem SameLive.runLabel (h : SameLive s t) (hi : Inv s) (hl : labelAt s.ph s.u = some l)
    (hc : ∀ b, SameNext (conclude l b (Machine.applyEvent (microOp l s).lineEvent s))
      (conclude l b (Machine.applyEvent (microOp l s).lineEvent t))) :
    SameNext (runLabel l s) (runLabel l t) := by
  have ho := (h.microOp_eq hi hl).symm
  obtain ⟨b, hs, ht⟩ | ⟨hs, ht⟩ | ⟨hs, -⟩ := h.run (microOp l s)
  · rw [runLabel_of_done rfl hs, runLabel_of_done ho ht]
    exact hc b
  · rw [runLabel_of_held rfl hs, runLabel_of_held ho ht]
    exact .next h
  · rw [runLabel_of_refused rfl hs]
    intro s' hs'
    cases hs'

/-! ### The ends of the labelled steps -/

theorem SameLive.advance (h : SameLive s t) (hp : s.ph ≠ .idle) (h6 : s.ph = .byteReceive → s.u ≠ 6) :
    SameLive (advance s) (advance t) :=
  { h with
    rb := fun n hn => h.rb n (rbLive_of_advance h6 hn)
    running := fun _ => ⟨congrArg (· + 1) (h.running hp).1, (h.running hp).2⟩ }

/-- The entry of a phase other than `BYTE_RECEIVE`, with the byte in flight kept; `J` may be anything. -/
theorem SameLive.entered (h : SameLive s t) {p : Phase} (hp : s.ph ≠ .idle) (hst : s.ph ≠ .start)
    (hr : p ≠ .byteReceive) {a c : BitVec 8} (hrb : ∀ n, rbLive (enterPhase p { s with j := a }) n → rbLive s n) :
    SameLive (enterPhase p { s with j := a }) (enterPhase p { t with j := c }) :=
  { h with
    ph := rfl
    rb := fun n hn => h.rb n (hrb n hn)
    running := fun _ => ⟨rfl, (h.running hp).2⟩
    loaded := fun _ _ => h.loaded hp hst
    receiving := fun he => absurd he hr }

/-- The entry of `BYTE_RECEIVE`, with the bytes before the next one alike. -/
theorem SameLive.received (h : SameLive s t) (hp : s.ph ≠ .idle) (hst : s.ph ≠ .start) {a : BitVec 8}
    (hrb : ∀ n, n < a.toNat → rbLive s n) :
    SameLive (enterPhase .byteReceive { s with j := a, i := 7 }) (enterPhase .byteReceive { t with j := a, i := 7 }) :=
  { h with
    ph := rfl
    rb := fun n hn => h.rb n (hrb n ((rbLive_receiving rfl).1 hn))
    running := fun _ => ⟨rfl, (h.running hp).2⟩
    loaded := fun _ _ => ⟨(h.loaded hp hst).1, rfl, (h.loaded hp hst).2.2⟩
    receiving := fun _ => rfl }

/-- The load of a byte below `LEN`, before or within the transmission. -/
theorem SameLive.loadByte (h : SameLive s t) (hi : Inv s) (hp : s.ph = .start ∨ transmitting s.ph = true) {n : BitVec 6}
    (hn : n.toNat < s.len.toNat) : SameNext (loadByte n s) (loadByte n t) := by
  have hb : s.ph ≠ .idle := by rintro he; simp [he, transmitting] at hp
  have h33 : n.toNat < 33 := hn.trans_le hi.lenLe
  rw [loadByte_ok h33, loadByte_ok h33, ← h.tb _ hn]
  exact .next { h with
    ph := rfl
    rb := fun a ha =>
      h.rb a ((rbLive_sending hp).2 ((rbLive_sending (s := enterPhase .byteTransfer s) (.inr rfl)).1 ha))
    running := fun _ => ⟨rfl, (h.running hb).2⟩
    loaded := fun _ _ => ⟨rfl, rfl, rfl⟩
    receiving := nofun }

/-- The end of a bit, in either direction. -/
theorem SameLive.nextBit (h : SameLive s t) (hp : s.ph ≠ .idle) (hst : s.ph ≠ .start)
    (hu : s.ph = .byteReceive → s.u ≤ 6) : SameLive (nextBit s) (nextBit t) := by
  obtain ⟨hk, hi, hs⟩ := h.loaded hp hst
  have hrb (v : BitVec 5) (hv : v ≤ 6) (n : Nat) (hn : rbLive (jump v s) n) : rbLive s n := by
    by_cases hr : s.ph = .byteReceive
    · rw [rbLive_receiving hr, if_pos (hu hr)]
      rw [rbLive_receiving (s := jump v s) hr] at hn
      rwa [if_pos (show (jump v s).u ≤ 6 from hv)] at hn
    · cases hph : s.ph <;> simp_all [rbLive]
  by_cases h0 : s.i = 0
  · rw [nextBit_last h0, nextBit_last (hi ▸ h0)]
    exact { h with rb := fun n hn => h.rb n (hrb 6 (by decide) n hn), running := fun _ => ⟨rfl, (h.running hp).2⟩ }
  · rw [nextBit_more h0, nextBit_more (hi ▸ h0)]
    exact { h with
      rb := fun n hn => h.rb n (hrb 0 (by decide) n hn)
      running := fun _ => ⟨rfl, (h.running hp).2⟩
      loaded := fun _ _ => ⟨hk, congrArg (· - 1) hi, hs⟩ }

/-- The sample of an acknowledgment: `ACKF` may have been anything. -/
theorem SameLive.takeAckSample (h : SameLive s t) (hp : s.ph = .byteTransfer) (b : Bool) :
    SameLive (takeAckSample b s) (takeAckSample b t) := by
  have hs : transmitting s.ph = true := by simp [hp, transmitting]
  have ha : SameLive { s with ackf := b } { t with ackf := b } := { h with }
  have hrb (p : Phase) (htr : transmitting p = true) (n : Nat) (hn : rbLive (enterPhase p { s with ackf := b }) n) :
      rbLive s n :=
    (rbLive_sending (.inr hs)).2 ((rbLive_sending (s := enterPhase p { s with ackf := b }) (.inr htr)).1 hn)
  cases b
  case false => exact ha.entered (p := .ackOk) (by simp [hp]) (by simp [hp]) nofun (hrb .ackOk rfl)
  case true => exact ha.entered (p := .ackFail) (by simp [hp]) (by simp [hp]) nofun (hrb .ackFail rfl)

/-- The dispatch after an acknowledged byte. -/
theorem SameLive.dispatchAfterAck (h : SameLive s t) (hi : Inv s) (hp : s.ph = .ackOk) :
    SameNext (dispatchAfterAck s) (dispatchAfterAck t) := by
  have htr : transmitting s.ph = true := by simp [hp, transmitting]
  have hb : s.ph ≠ .idle := by simp [hp]
  have hst : s.ph ≠ .start := by simp [hp]
  obtain ⟨hk, -, -⟩ := h.loaded hb hst
  obtain ⟨-, hm, hn⟩ := h.running hb
  cases hmode : s.mode with
  | w =>
    have hmode' : t.mode = .w := hm ▸ hmode
    by_cases hl : s.k.toNat + 1 < s.len.toNat
    · rw [dispatchAfterAck_moreBytes hmode hl, dispatchAfterAck_moreBytes hmode' (hk ▸ h.len ▸ hl), ← hk]
      refine h.loadByte hi (.inr htr) ?_
      rw [BitVec.toNat_add]
      exact (Nat.mod_le _ _).trans_lt hl
    · rw [dispatchAfterAck_lastByte hmode hl, dispatchAfterAck_lastByte hmode' (hk ▸ h.len ▸ hl)]
      refine .next (h.entered (p := .stop) hb hst nofun fun n hx => (rbLive_sending (.inr htr)).2 ⟨hmode, ?_⟩)
      simpa [hmode] using (rbLive_stopping rfl).1 hx
  | r =>
    have hmode' : t.mode = .r := hm ▸ hmode
    by_cases h0 : s.nreq = 0
    · rw [dispatchAfterAck_readNone hmode h0, dispatchAfterAck_readNone hmode' (hn hmode ▸ h0)]
      refine .next (h.entered (p := .stop) hb hst nofun fun n hx => ?_)
      simpa [hmode, h0] using (rbLive_stopping rfl).1 hx
    · rw [dispatchAfterAck_read hmode h0, dispatchAfterAck_read hmode' (hn hmode ▸ h0)]
      exact .next (h.received hb hst fun n hx => absurd hx (Nat.not_lt_zero n))

/-- The end of a transaction, when what is returned was alive before. -/
theorem SameLive.ended (h : SameLive s t) (hp : s.ph ≠ .idle) (ok : Bool) {m n : BitVec 8} (hmn : s.mode = .r → m = n)
    (hrb : ∀ a, a < (if s.mode = .r then m else s.rxcnt).toNat → rbLive s a) :
    SameLive (endTransaction ok m s) (endTransaction ok n t) :=
  { h with
    len := rfl
    ph := rfl
    lastok := rfl
    rxcnt := by
      rw [endTransaction_rxcnt, endTransaction_rxcnt, ← (h.running hp).2.1, ← h.rxcnt]
      split
      · exact hmn ‹_›
      · rfl
    tb := nofun
    rb := fun a ha => h.rb a (hrb a ((rbLive_idle rfl).1 ha))
    running := fun he => absurd rfl he
    loaded := fun he => absurd rfl he
    receiving := nofun }

/-- `AF0`: nothing that a read returned before can be returned after. -/
theorem SameLive.takeAckFail (h : SameLive s t) (hp : s.ph = .ackFail) : SameLive (takeAckFail s) (takeAckFail t) := by
  refine (h.ended (by simp [hp]) false (fun _ => rfl) fun a ha => ?_).respond ..
  rw [rbLive_sending (.inr (by simp [hp, transmitting]))]
  cases hm : s.mode <;> simp_all

/-- `SP6`: `RXCNT` takes the number of bytes that a read has stored. -/
theorem SameLive.takeStopDone (h : SameLive s t) (hp : s.ph = .stop) :
    SameLive (takeStopDone s) (takeStopDone t) := by
  obtain ⟨-, hm, hn⟩ := h.running (by simp [hp])
  have hv : (if s.mode = .r then s.nreq else 0x00) = if t.mode = .r then t.nreq else 0x00 := by
    rw [← hm]
    split
    · exact hn ‹_›
    · rfl
  unfold Machine.takeStopDone
  rw [hv]
  exact (h.ended (by simp [hp]) true hn fun a ha => (rbLive_stopping hp).2 ha).respond ..

/-- `RX3`: the sampled bit goes into `SH`. -/
theorem SameLive.bitSampled (h : SameLive s t) (hp : s.ph = .byteReceive) (hu : s.u = 3) (b : Bool) :
    SameLive (Machine.advance { s with sh := setBitAt s.sh s.i b })
      (Machine.advance { t with sh := setBitAt t.sh t.i b }) := by
  have hb : s.ph ≠ .idle := by simp [hp]
  obtain ⟨hk, hi, hs⟩ := h.loaded hb (by simp [hp])
  exact { h.advance hb fun _ => by simp [hu] with
    loaded := fun _ _ => ⟨hk, hi, by simp only [advance_sh, hi, hs]⟩ }

/-- `RX6`: the byte stored is alike in both, and can be returned from now on. -/
theorem SameLive.storeReceived (h : SameLive s t) (hp : s.ph = .byteReceive) (hu : s.u = 6) :
    SameNext (storeReceived s) (storeReceived t) := by
  have hb : s.ph ≠ .idle := by simp [hp]
  have hj := h.receiving hp
  obtain ⟨-, -, hsh⟩ := h.loaded hb (by simp [hp])
  intro s' hs
  obtain ⟨hlt, rfl⟩ := storeReceived_next hs
  rw [storeReceived_ok (s := t) (hj ▸ hlt), ← hj, ← hsh]
  refine ⟨_, rfl, { h with
    rb := fun n hn => ?_
    running := fun _ => ⟨congrArg (· + 1) (h.running hb).1, (h.running hb).2⟩ }⟩
  rw [rbLive_receiving (s := Machine.advance (writeRb s.j.toNat s.sh s)) hp] at hn
  by_cases hnj : n = s.j.toNat
  · simp [hnj]
  · simp only [advance_rb, writeRb_rb, Memory.read_write_other _ _ hnj]
    refine h.rb n ((rbLive_receiving hp).2 ?_)
    rw [if_neg (by simp [hu])] at hn
    rw [if_pos (by simp [hu])]
    exact Nat.lt_of_le_of_ne (Nat.lt_succ_iff.1 hn) hnj

/-- `RX17`: the next byte, or STOP after the last. -/
theorem SameLive.nextReceived (h : SameLive s t) (hi : Inv s) (hp : s.ph = .byteReceive) (hu : s.u = 17) :
    SameLive (nextReceived s) (nextReceived t) := by
  have hb : s.ph ≠ .idle := by simp [hp]
  have hst : s.ph ≠ .start := by simp [hp]
  have hj := h.receiving hp
  obtain ⟨hm, hlt⟩ := hi.jBound hp
  have hn := (h.running hb).2.2 hm
  have hlive (n : Nat) (hx : n < s.j.toNat + 1) : rbLive s n := by
    rw [rbLive_receiving hp]
    simpa [hu] using hx
  by_cases hmore : s.j + 1 < s.nreq
  · rw [nextReceived_enter hp hmore, nextReceived_enter (h.ph ▸ hp) (hj ▸ hn ▸ hmore), ← hj]
    exact h.received hb hst fun n hx => hlive n (by bv_omega)
  · rw [nextReceived_last hmore, nextReceived_last (hj ▸ hn ▸ hmore)]
    refine h.entered (p := .stop) hb hst nofun fun n hx => hlive n ?_
    have hx := (rbLive_stopping rfl).1 hx
    simp only [enterPhase_mode, hm, if_true, enterPhase_nreq] at hx
    bv_omega

/-- A labelled step in two states that are alike in all that can matter. -/
theorem runLabel_sameNext (h : SameLive s t) (hi : Inv s) (hl : labelAt s.ph s.u = some l) :
    SameNext (runLabel l s) (runLabel l t) := by
  obtain ⟨hp, hu⟩ := labelAt_iff.1 hl
  have hb : s.ph ≠ .idle := by intro he; rw [he, labelAt_idle] at hl; cases hl
  refine h.runLabel hi hl fun b => ?_
  by_cases h6 : l = .rx6
  · subst h6
    exact h.storeReceived hp hu
  rcases conclude_advance_or l with ⟨ha, -⟩ | rfl | rfl | rfl | rfl | rfl | rfl | rfl | rfl | rfl | rfl
  case inl =>
    rw [ha, ha]
    refine .next ((h.applyEvent _).advance (by simpa using hb) fun hr hu => h6 ?_)
    rw [applyEvent_ph] at hr
    rw [applyEvent_u] at hu
    exact Option.some.inj (hl.symm.trans (labelAt_iff.2 ⟨hr, hu⟩))
  · exact h.loadByte hi (n := 0) (.inl hp) (hi.hasAddress hb)
  · exact .next (h.nextBit hb (by simp [hp, Label.home]) fun he => by cases hp.symm.trans he)
  · exact .next (h.takeAckSample hp b)
  · exact h.dispatchAfterAck hi hp
  · exact .next (h.takeAckFail hp)
  · exact .next (h.bitSampled hp hu b)
  · exact .next ((h.applyEvent (some (.scl, .drivenLow))).nextBit hb (show s.ph ≠ .start by simp [hp, Label.home])
      fun _ => show s.u ≤ 6 from hu ▸ by decide)
  · exact absurd rfl h6
  · exact .next (h.nextReceived hi hp hu)
  · exact .next (h.takeStopDone hp)

/-- The turn of the block's agent in two states that are alike in all that can matter. -/
theorem blockStep_sameNext (h : SameLive s t) (hi : Inv s) : SameNext (blockStep s) (blockStep t) := by
  by_cases hp : s.ph = .idle
  · rw [blockStep_idle hp, blockStep_idle (h.ph ▸ hp)]
    exact hostStep_sameNext h hp
  · obtain ⟨l, hl⟩ := hi.label hp
    have hl' : labelAt t.ph t.u = some l := by rw [← h.ph, ← (h.running hp).1, hl]
    rw [blockStep_busy hp, blockStep_busy (h.ph ▸ hp), engineStep_of_label hl, engineStep_of_label hl']
    exact runLabel_sameNext h hi hl

/-- Both states give their block's agent a turn, or neither does, and the turns find states that are alike. -/
theorem SameLive.grant (h : SameLive s t) {g : State} (hg : grant s = some g) :
    ∃ g', grant t = some g' ∧ SameLive g g' := by
  obtain ⟨hs, rfl⟩ | ⟨es, hs, rfl⟩ := grant_cases hg
  · have ht : t.sched = [] := h.sched ▸ hs
    exact ⟨freeBus (clearRsp t), by simp [Machine.grant, ht],
      { h with
        extScl := congrArg Config.freeExtScl h.tick
        extSda := congrArg Config.freeExtSda h.tick
        rsp := rfl
        tick := congrArg (· + 1) h.tick }⟩
  · have ht : t.sched = .block :: es := h.sched ▸ hs
    exact ⟨clearRsp { t with sched := es }, by simp [Machine.grant, ht], { h with rsp := rfl, sched := rfl }⟩

/-- Settles O55, by the agent that moves: `BUS` sets its pulls alike, `rst` writes every register of the block, and the
block's agent runs the same command or the same labelled step. -/
theorem unspecifiedRegistersCannotMatter : Obligations.UnspecifiedRegistersCannotMatter := by
  intro s t s' hi _ h hs
  obtain ⟨a, b, es, he, rfl⟩ | ⟨es, he, rfl⟩ | ⟨g, hg, hb⟩ := step_cases hs
  · have ht : t.sched = .bus a b :: es := h.sched ▸ he
    exact ⟨busStep a b (clearRsp { t with sched := es }), by simp only [step, turn, ht],
      { h with extScl := rfl, extSda := rfl, rsp := rfl, sched := rfl }⟩
  · have ht : t.sched = .rst :: es := h.sched ▸ he
    exact ⟨resetBlock { t with sched := es }, by simp only [step, turn, ht],
      { extScl := h.extScl, extSda := h.extSda, cmds := h.cmds, cfg := h.cfg, tick := h.tick
        drvScl := rfl, drvSda := rfl, len := rfl, rxcnt := rfl, ph := rfl, lastok := rfl, rsp := rfl, sched := rfl
        tb := fun _ _ => rfl, rb := fun _ _ => rfl
        running := fun _ => ⟨rfl, rfl, fun _ => rfl⟩, loaded := fun _ _ => ⟨rfl, rfl, rfl⟩, receiving := fun _ => rfl }⟩
  · obtain ⟨g', hg', hgg⟩ := h.grant hg
    have hgi : Inv g := by
      rw [grant_frame hg]
      exact hi.congr rfl rfl
    rw [step_of_grant hg']
    exact blockStep_sameNext hgg hgi s' hb

end Machine
end Sys2Proof
end

section
/-! PROOFS. What one step does to the drive modes (R67) and to the Transfer Buffer (R76): a labelled step is one
micro-operation and an end, and each of the two is taken on its own. -/

namespace Sys2Proof

/-- A command word is its two fields put together (R94). -/
theorem cmd16_fields (w : Word) : cmd16 (opField w) (immField w) = w := by
  have h : cmd16 (opField w) (immField w) = w.extractLsb' 0 16 :=
    BitVec.extractLsb'_append_extractLsb'_eq_extractLsb' rfl
  rw [h, BitVec.extractLsb'_eq_self]

/-- The operand form "none" gives its own command alone, and from the operand `0x00` alone (R95, R103). -/
theorem decodeNone_ok {imm : Byte} {i j : Instr} (h : decodeNone imm i = .ok j) : imm = 0 ∧ i = j := by
  unfold decodeNone at h
  split at h
  next himm => exact ⟨himm, Decoded.ok.inj h⟩
  next => cases h

/-- The operand form `a7` gives no command but a `SETADDR` (R98). -/
theorem decodeA7_ok {imm : Byte} {i : Instr} (h : decodeA7 imm = .ok i) : ∃ a7, i = .setaddr a7 := by
  unfold decodeA7 at h
  split at h
  next => cases h
  next => exact ⟨_, (Decoded.ok.inj h).symm⟩

/-- A command that only the read/write variant has is decoded as itself or not at all (R104). -/
theorem decodeRwOnly_ok {v : Variant} {i j : Instr} (h : decodeRwOnly v i = .ok j) : i = j := by
  cases v with
  | wo => cases h
  | rw => exact Decoded.ok.inj h

/-- One word decodes to `INIT`, the same in both variants: every other opcode gives another command or none (R98). -/
theorem eq_encode_init_of_decode {v : Variant} {w : Word} (h : decode v w = .ok .init) : w = encode .init := by
  unfold decode at h
  split_ifs at h with hop
  · rw [← cmd16_fields w, hop, (decodeNone_ok h).1]
    rfl
  · obtain ⟨a7, hi⟩ := decodeA7_ok h
    cases hi
  · cases h
  · cases (decodeNone_ok h).2
  · cases decodeRwOnly_ok h
  · cases decodeRwOnly_ok h
  · cases (decodeNone_ok h).2

namespace Machine

variable {s t m : State} {l : Label} {b : Bool}

/-! ### Drive modes -/

/-- A micro-operation changes one drive mode at most (R121 to R127). -/
theorem run_oneLine {o : MicroOp} (h : o.run s = .done m b) : m.drvScl = s.drvScl ∨ m.drvSda = s.drvSda := by
  obtain ⟨l, d, rfl, -⟩ | ⟨rfl, -⟩ := run_done_cases h
  · cases l with
    | scl => exact .inr rfl
    | sda => exact .inl rfl
  · exact .inl rfl

/-- The end of a labelled step keeps both drive modes: the wire is the micro-operation's alone (R141). -/
theorem conclude_drives (h : conclude l b s = .next t) : t.drvScl = s.drvScl ∧ t.drvSda = s.drvSda := by
  obtain hf | rfl | rfl | ⟨-, rfl⟩ := conclude_frame h
  · rw [hf]; exact ⟨rfl, rfl⟩
  all_goals exact ⟨rfl, rfl⟩

/-- A labelled step changes one drive mode at most. -/
theorem runLabel_oneLine (h : runLabel l s = .next t) : t.drvScl = s.drvScl ∨ t.drvSda = s.drvSda := by
  obtain ⟨m, b, hm, hc⟩ | ⟨-, rfl⟩ := runLabel_cases h
  · obtain ⟨hscl, hsda⟩ := conclude_drives hc
    rw [hscl, hsda]
    exact run_oneLine hm
  · exact .inl rfl

/-- The host's turn keeps both drive modes, unless the word it accepts is that of `INIT` (R23, R181). -/
theorem hostStep_drives (h : hostStep s = .next t) :
    (t.drvScl = s.drvScl ∧ t.drvSda = s.drvSda) ∨ ∃ ws, s.cmds = encode .init :: ws := by
  obtain ⟨-, rfl⟩ | ⟨w, ws, e, -, -, rfl⟩ | ⟨w, ws, i, hc, hd, he⟩ := hostStep_cases h
  · exact .inl ⟨rfl, rfl⟩
  · exact .inl ⟨rfl, rfl⟩
  · by_cases hi : i = .init
    · subst hi
      exact .inr ⟨ws, by rw [hc, eq_encode_init_of_decode hd]⟩
    · rw [exec_frame_of_ne_init hi he]
      exact .inl ⟨rfl, rfl⟩

/-- The turn of the block's agent changes one drive mode at most, unless it accepts `INIT`. -/
theorem blockStep_oneLine (h : blockStep s = .next t) :
    t.drvScl = s.drvScl ∨ t.drvSda = s.drvSda ∨ (s.ph = .idle ∧ ∃ ws, s.cmds = encode .init :: ws) := by
  obtain ⟨hp, h⟩ | ⟨-, l, -, h⟩ := blockStep_cases h
  · obtain ⟨hscl, -⟩ | hw := hostStep_drives h
    · exact .inl hscl
    · exact .inr (.inr ⟨hp, hw⟩)
  · exact (runLabel_oneLine h).imp_right .inl

/-- Settles O50: `BUS` writes no drive mode, a labelled step one at most, and of the commands `INIT` alone writes
any. -/
theorem oneLineAStep : Obligations.OneLineAStep := by
  intro s t h
  obtain ⟨a, b, es, -, rfl⟩ | ⟨es, hs, -⟩ | ⟨g, hg, hb⟩ := step_cases h
  · exact .inl rfl
  · exact .inr (.inr (.inl ⟨es, hs⟩))
  · have hline := blockStep_oneLine hb
    rw [grant_frame hg] at hline
    exact hline.imp_right (Or.imp_right .inr)

/-! ### The Transfer Buffer -/

/-- `readTb` looks at the configuration and `TB` alone. -/
theorem readTb_congr (hc : t.cfg = s.cfg) (ht : t.tb = s.tb) (n : Nat) : readTb t n = readTb s n := by
  simp only [readTb, hc, ht]

/-- The end of a labelled step writes no `TB` and accepts no word, and it writes `LEN` at the end of the transaction
alone (R31, R76, R93). -/
theorem conclude_buffer (h : conclude l b s = .next t) :
    t.tb = s.tb ∧ (t.len = s.len ∨ (t.ph = .idle ∧ t.len = 0)) ∧ t.cmds = s.cmds := by
  obtain hf | rfl | rfl | ⟨-, rfl⟩ := conclude_frame h
  · rw [hf]; exact ⟨rfl, .inl rfl, rfl⟩
  · exact ⟨rfl, .inr ⟨rfl, rfl⟩, rfl⟩
  · exact ⟨rfl, .inr ⟨rfl, rfl⟩, rfl⟩
  · exact ⟨rfl, .inl rfl, rfl⟩

/-- A labelled step does to the buffer what its end does. -/
theorem runLabel_buffer (h : runLabel l s = .next t) :
    t.tb = s.tb ∧ (t.len = s.len ∨ (t.ph = .idle ∧ t.len = 0)) ∧ t.cmds = s.cmds := by
  obtain ⟨m, b, hm, hc⟩ | ⟨-, rfl⟩ := runLabel_cases h
  · have hbuf := conclude_buffer hc
    rw [run_frame hm] at hbuf
    exact hbuf
  · exact ⟨rfl, .inl rfl, rfl⟩

/-- Settles O51: while a transaction runs only the engine and `BUS` have a step, and neither writes the buffer but for
`LEN` at the end. -/
theorem bufferIsFixedDuringATransaction : Obligations.BufferIsFixedDuringATransaction := by
  intro s t hp hr h
  obtain ⟨a, b, es, -, rfl⟩ | ⟨es, hs, -⟩ | ⟨g, hg, hb⟩ := step_cases h
  · exact ⟨fun _ => rfl, .inl rfl, rfl⟩
  · exact absurd hs (hr es)
  · have hgp : g.ph = s.ph := by rw [grant_frame hg]
    obtain ⟨hi, -⟩ | ⟨-, l, -, hl⟩ := blockStep_cases hb
    · exact absurd (hgp.symm.trans hi) hp
    · have hcfg := runLabel_cfg hl
      have hbuf := runLabel_buffer hl
      rw [grant_frame hg] at hcfg hbuf
      obtain ⟨htb, hlen, hcmds⟩ := hbuf
      exact ⟨readTb_congr hcfg htb, hlen, hcmds⟩

end Machine
end Sys2Proof
end

section
/-! PROOFS. The decoder, the encoder and the opcode map. Decoding is one equation per opcode and one equivalence per
operand form; a command word is its two fields, so that an encoding and a row of the map are statements about these. -/

namespace Sys2Proof

variable {v : Variant} {w : Word} {op imm : Byte} {i j : Instr}

/-! ### The two fields of a command word -/

@[simp] theorem opField_cmd16 (op imm : Byte) : opField (cmd16 op imm) = op :=
  BitVec.extractLsb'_append_eq_left

@[simp] theorem immField_cmd16 (op imm : Byte) : immField (cmd16 op imm) = imm :=
  BitVec.extractLsb'_append_eq_right

/-- A word has the fields `op` and `imm` exactly when it is the word made of them (R94). -/
theorem eq_cmd16_iff : w = cmd16 op imm ↔ opField w = op ∧ immField w = imm := by
  constructor
  · rintro rfl
    exact ⟨opField_cmd16 .., immField_cmd16 ..⟩
  · rintro ⟨rfl, rfl⟩
    exact (cmd16_fields w).symm

/-! ### Operand forms -/

theorem decodeNone_eq_ok_iff : decodeNone imm i = .ok j ↔ imm = 0 ∧ i = j := by
  unfold decodeNone
  split <;> simp_all

/-- A row of this form selects all eight operand bits (R98). -/
theorem decodeNone_of_mask (h : imm &&& 0xFF = 0) : decodeNone imm i = .ok i :=
  decodeNone_eq_ok_iff.2 ⟨BitVec.and_allOnes.symm.trans h, rfl⟩

theorem decodeNone_eq_err_iff {e : CmdError} : decodeNone imm i = .err e ↔ imm ≠ 0 ∧ .reservedOperand = e := by
  unfold decodeNone
  split <;> simp_all

/-- A byte is a clear bit 7 and the seven bits below exactly when bit 7 is clear (R95). -/
theorem eq_zero_append_iff {a7 : BitVec 7} : imm = 0#1 ++ a7 ↔ imm.getLsbD 7 = false ∧ imm.extractLsb' 0 7 = a7 := by
  constructor
  · rintro rfl
    exact ⟨BitVec.getLsbD_append, BitVec.extractLsb'_append_eq_right⟩
  · rintro ⟨h7, rfl⟩
    have hbit : imm.extractLsb' 7 1 = 0#1 := by
      ext n hn
      simpa [Nat.lt_one_iff.1 hn] using h7
    have hfields : imm.extractLsb' 7 1 ++ imm.extractLsb' 0 7 = imm.extractLsb' 0 8 :=
      BitVec.extractLsb'_append_extractLsb'_eq_extractLsb' rfl
    rw [← hbit, hfields, BitVec.extractLsb'_eq_self]

theorem decodeA7_eq_ok_iff : decodeA7 imm = .ok j ↔ ∃ a7, imm = 0#1 ++ a7 ∧ .setaddr a7 = j := by
  simp only [eq_zero_append_iff]
  unfold decodeA7
  split <;> simp_all

theorem decodeA7_eq_err_iff {e : CmdError} :
    decodeA7 imm = .err e ↔ imm.getLsbD 7 = true ∧ .reservedOperand = e := by
  unfold decodeA7
  split <;> simp_all

theorem decodeRwOnly_eq_ok_iff : decodeRwOnly v i = .ok j ↔ v = .rw ∧ i = j := by
  cases v <;> simp [decodeRwOnly]

theorem decodeRwOnly_eq_err_iff {e : CmdError} : decodeRwOnly v i = .err e ↔ v = .wo ∧ .illegalOpcode = e := by
  cases v <;> simp [decodeRwOnly]

/-! ### The decoder, by opcode (R98, R99) -/

theorem decode_op_init (h : opField w = 0x01) : decode v w = decodeNone (immField w) .init := by simp [decode, h]

theorem decode_op_setaddr (h : opField w = 0x02) : decode v w = decodeA7 (immField w) := by simp [decode, h]

theorem decode_op_append (h : opField w = 0x03) : decode v w = .ok (.append (immField w)) := by simp [decode, h]

theorem decode_op_execw (h : opField w = 0x04) : decode v w = decodeNone (immField w) .execw := by simp [decode, h]

theorem decode_op_execr (h : opField w = 0x05) : decode v w = decodeRwOnly v (.execr (immField w)) := by
  simp [decode, h]

theorem decode_op_rdrx (h : opField w = 0x06) : decode v w = decodeRwOnly v (.rdrx (immField w)) := by
  simp [decode, h]

theorem decode_op_rdstat (h : opField w = 0x07) : decode v w = decodeNone (immField w) .rdstat := by simp [decode, h]

theorem decode_op_unused (h : opField w = 0x00 ∨ 0x08 ≤ opField w) : decode v w = .err .illegalOpcode := by
  unfold decode
  split_ifs <;> simp_all

/-- Every opcode is one of the seven of the map, or unused. -/
theorem opField_cases (w : Word) :
    opField w = 0x01 ∨ opField w = 0x02 ∨ opField w = 0x03 ∨ opField w = 0x04 ∨ opField w = 0x05 ∨ opField w = 0x06 ∨
      opField w = 0x07 ∨ opField w = 0x00 ∨ 0x08 ≤ opField w := by
  bv_omega

/-- The decoder inverts the encoder: a word decodes to a command exactly when it is the command's word and the command
is one of the variant's (R98, R103, R104). -/
theorem decode_eq_ok_iff : decode v w = .ok i ↔ w = encode i ∧ i.wellFormed v = true := by
  constructor
  · intro h
    rcases opField_cases w with hop | hop | hop | hop | hop | hop | hop | hop
    · rw [decode_op_init hop] at h
      obtain ⟨himm, rfl⟩ := decodeNone_eq_ok_iff.1 h
      exact ⟨eq_cmd16_iff.2 ⟨hop, himm⟩, rfl⟩
    · rw [decode_op_setaddr hop] at h
      obtain ⟨a7, himm, rfl⟩ := decodeA7_eq_ok_iff.1 h
      exact ⟨eq_cmd16_iff.2 ⟨hop, himm⟩, rfl⟩
    · rw [decode_op_append hop] at h
      cases h
      exact ⟨eq_cmd16_iff.2 ⟨hop, rfl⟩, rfl⟩
    · rw [decode_op_execw hop] at h
      obtain ⟨himm, rfl⟩ := decodeNone_eq_ok_iff.1 h
      exact ⟨eq_cmd16_iff.2 ⟨hop, himm⟩, rfl⟩
    · rw [decode_op_execr hop] at h
      obtain ⟨rfl, rfl⟩ := decodeRwOnly_eq_ok_iff.1 h
      exact ⟨eq_cmd16_iff.2 ⟨hop, rfl⟩, rfl⟩
    · rw [decode_op_rdrx hop] at h
      obtain ⟨rfl, rfl⟩ := decodeRwOnly_eq_ok_iff.1 h
      exact ⟨eq_cmd16_iff.2 ⟨hop, rfl⟩, rfl⟩
    · rw [decode_op_rdstat hop] at h
      obtain ⟨himm, rfl⟩ := decodeNone_eq_ok_iff.1 h
      exact ⟨eq_cmd16_iff.2 ⟨hop, himm⟩, rfl⟩
    · rw [decode_op_unused hop] at h
      cases h
  · rintro ⟨rfl, hv⟩
    cases i with
    | init => exact (decode_op_init (opField_cmd16 ..)).trans (decodeNone_eq_ok_iff.2 ⟨immField_cmd16 .., rfl⟩)
    | setaddr a7 =>
      exact (decode_op_setaddr (opField_cmd16 ..)).trans (decodeA7_eq_ok_iff.2 ⟨a7, immField_cmd16 .., rfl⟩)
    | append b8 => rw [encode, decode_op_append (opField_cmd16 ..), immField_cmd16]
    | execw => exact (decode_op_execw (opField_cmd16 ..)).trans (decodeNone_eq_ok_iff.2 ⟨immField_cmd16 .., rfl⟩)
    | execr n8 =>
      rw [encode, decode_op_execr (opField_cmd16 ..), immField_cmd16, decodeRwOnly_eq_ok_iff]
      exact ⟨of_decide_eq_true hv, rfl⟩
    | rdrx n8 =>
      rw [encode, decode_op_rdrx (opField_cmd16 ..), immField_cmd16, decodeRwOnly_eq_ok_iff]
      exact ⟨of_decide_eq_true hv, rfl⟩
    | rdstat => exact (decode_op_rdstat (opField_cmd16 ..)).trans (decodeNone_eq_ok_iff.2 ⟨immField_cmd16 .., rfl⟩)

/-- Settles O2, as the one direction of `decode_eq_ok_iff`. -/
theorem decodeOfEncodeIsTheCommand : Obligations.DecodeOfEncodeIsTheCommand :=
  fun _ _ hv => decode_eq_ok_iff.2 ⟨rfl, hv⟩

/-- The read/write variant has every command (R10). -/
theorem wellFormed_rw (i : Instr) : i.wellFormed .rw = true := by cases i <;> rfl

/-- No two commands have the same word: the read/write variant decodes it to both. -/
theorem encode_injective : Function.Injective encode := fun i j h => by
  have hi : decode .rw (encode i) = .ok i := decode_eq_ok_iff.2 ⟨rfl, wellFormed_rw i⟩
  have hj : decode .rw (encode i) = .ok j := decode_eq_ok_iff.2 ⟨h, wellFormed_rw j⟩
  exact Decoded.ok.inj (hi.symm.trans hj)

/-- Settles O3, as the other direction of `decode_eq_ok_iff`, with the encoder's injectivity. -/
theorem encodeOfDecodeIsTheWord : Obligations.EncodeOfDecodeIsTheWord := by
  intro v w i h
  obtain ⟨rfl, hv⟩ := decode_eq_ok_iff.1 h
  exact ⟨rfl, hv, fun j hj => encode_injective hj⟩

/-! ### The opcode map -/

/-- A row of the map asks for its opcode, and for the operand bits that its mask selects (R98). -/
theorem match_iff {r : OpcodeRow} (hr : r ∈ opcodeTable) :
    w &&& r.mask = r.bits ↔ opField w = opField r.bits ∧ immField w &&& immField r.mask = immField r.bits := by
  have hop : ∀ q ∈ opcodeTable, opField q.mask = BitVec.allOnes 8 := by decide
  have hand : w &&& r.mask = cmd16 (opField w) (immField w &&& immField r.mask) := by
    calc w &&& r.mask = cmd16 (opField w) (immField w) &&& cmd16 (opField r.mask) (immField r.mask) := by
          rw [cmd16_fields, cmd16_fields]
      _ = cmd16 (opField w &&& opField r.mask) (immField w &&& immField r.mask) := BitVec.and_append
      _ = cmd16 (opField w) (immField w &&& immField r.mask) := by rw [hop r hr, BitVec.and_allOnes]
  rw [hand, eq_comm, eq_cmd16_iff, eq_comm, @eq_comm _ (immField r.bits)]

/-- The row that bears the name of a command of the variant is a row of the variant (R104). -/
theorem rwOnly_of_name (hv : i.wellFormed v = true) {r : OpcodeRow} (hr : r ∈ opcodeTable) (hn : r.name = i.mnemonic) :
    (!r.rwOnly || v = .rw) = true := by
  cases v with
  | rw => simp
  | wo =>
    have hname : ∀ q ∈ opcodeTable, q.rwOnly = true → q.name = "EXECR" ∨ q.name = "RDRX" := by decide
    have hi : ¬ (i.mnemonic = "EXECR" ∨ i.mnemonic = "RDRX") := by
      cases i <;> simp_all [Instr.wellFormed, Instr.mnemonic]
    rw [← hn] at hi
    simpa using fun hq => hi (hname r hr hq)

/-- The word of a command of the variant is accepted by the row that bears the command's name. -/
theorem exists_row_accepts_encode (hv : i.wellFormed v = true) :
    ∃ r ∈ opcodeTable, r.accepts v (encode i) = true ∧ r.name = i.mnemonic := by
  have hrow : Laws.EncodingRow.Statement i := by
    cases i with
    | init => exact Laws.EncodingRow.init
    | setaddr a7 => exact Laws.EncodingRow.setaddr a7
    | append b8 => exact Laws.EncodingRow.append b8
    | execw => exact Laws.EncodingRow.execw
    | execr n8 => exact Laws.EncodingRow.execr n8
    | rdrx n8 => exact Laws.EncodingRow.rdrx n8
    | rdstat => exact Laws.EncodingRow.rdstat
  have hmem : i.mnemonic ∈ (opcodeTable.filter fun r => encode i &&& r.mask = r.bits).map (·.name) := by
    rw [hrow]
    exact List.mem_singleton_self _
  obtain ⟨r, hf, hn⟩ := List.mem_map.1 hmem
  obtain ⟨hr, hm⟩ := List.mem_filter.1 hf
  refine ⟨r, hr, ?_, hn⟩
  rw [OpcodeRow.accepts, rwOnly_of_name hv hr hn]
  exact hm

/-- A word that a row accepts decodes to a command. -/
theorem exists_decode_of_accepts {r : OpcodeRow} (hr : r ∈ opcodeTable) (ha : r.accepts v w = true) :
    ∃ i, decode v w = .ok i := by
  obtain ⟨hrw, hm⟩ := Bool.and_eq_true_iff.1 ha
  obtain ⟨hop, himm⟩ := (match_iff hr).1 (of_decide_eq_true hm)
  simp only [opcodeTable, List.mem_cons, List.not_mem_nil, or_false] at hr
  rcases hr with rfl | rfl | rfl | rfl | rfl | rfl | rfl
  · exact ⟨_, (decode_op_init hop).trans (decodeNone_of_mask himm)⟩
  · refine ⟨_, (decode_op_setaddr hop).trans (if_neg ?_)⟩
    intro h7
    have hbit : (immField w &&& immField 0xFF80).getLsbD 7 = (immField 0x0200).getLsbD 7 := by rw [himm]
    rw [BitVec.getLsbD_and, h7] at hbit
    exact absurd hbit (by decide)
  · exact ⟨_, decode_op_append hop⟩
  · exact ⟨_, (decode_op_execw hop).trans (decodeNone_of_mask himm)⟩
  · exact ⟨_, (decode_op_execr hop).trans (decodeRwOnly_eq_ok_iff.2 ⟨of_decide_eq_true hrw, rfl⟩)⟩
  · exact ⟨_, (decode_op_rdrx hop).trans (decodeRwOnly_eq_ok_iff.2 ⟨of_decide_eq_true hrw, rfl⟩)⟩
  · exact ⟨_, (decode_op_rdstat hop).trans (decodeNone_of_mask himm)⟩

/-- A word decodes exactly when a row of the map accepts it (R98, R99). -/
theorem exists_decode_iff : (∃ i, decode v w = .ok i) ↔ ∃ r ∈ opcodeTable, r.accepts v w = true := by
  constructor
  · rintro ⟨i, h⟩
    obtain ⟨rfl, hv⟩ := decode_eq_ok_iff.1 h
    obtain ⟨r, hr, ha, -⟩ := exists_row_accepts_encode hv
    exact ⟨r, hr, ha⟩
  · rintro ⟨r, hr, ha⟩
    exact exists_decode_of_accepts hr ha

/-- Settles O4: a row accepts the words of its command alone, and no two rows have the same opcode. -/
theorem decoderFollowsTheOpcodeMap : Obligations.DecoderFollowsTheOpcodeMap := by
  refine ⟨fun v w => exists_decode_iff, fun v w i h => ?_, fun w r hr q hq hwr hwq => ?_⟩
  · obtain ⟨rfl, hv⟩ := decode_eq_ok_iff.1 h
    exact exists_row_accepts_encode hv
  · have hop : ∀ r ∈ opcodeTable, ∀ q ∈ opcodeTable, opField r.bits = opField q.bits → r = q := by decide
    exact hop r hr q hq (((match_iff hr).1 hwr).1.symm.trans ((match_iff hq).1 hwq).1)

/-! ### Illegal words -/

/-- An opcode is illegal exactly when it is not in the map of the variant (R103, R104). -/
theorem decode_eq_illegalOpcode_iff :
    decode v w = .err .illegalOpcode ↔
      opField w = 0x00 ∨ 0x08 ≤ opField w ∨ (v = .wo ∧ (opField w = 0x05 ∨ opField w = 0x06)) := by
  rcases opField_cases w with hop | hop | hop | hop | hop | hop | hop | hop
  · simp [decode_op_init hop, decodeNone_eq_err_iff, hop]
  · simp [decode_op_setaddr hop, decodeA7_eq_err_iff, hop]
  · simp [decode_op_append hop, hop]
  · simp [decode_op_execw hop, decodeNone_eq_err_iff, hop]
  · simp [decode_op_execr hop, decodeRwOnly_eq_err_iff, hop]
  · simp [decode_op_rdrx hop, decodeRwOnly_eq_err_iff, hop]
  · simp [decode_op_rdstat hop, decodeNone_eq_err_iff, hop]
  · simp only [decode_op_unused hop, true_iff]
    exact hop.imp_right .inl

/-- An operand is reserved exactly when a must-be-zero bit of it is 1 (R95, R103). -/
theorem decode_eq_reservedOperand_iff :
    decode v w = .err .reservedOperand ↔
      ((opField w = 0x01 ∨ opField w = 0x04 ∨ opField w = 0x07) ∧ immField w ≠ 0) ∨
      (opField w = 0x02 ∧ (immField w).getLsbD 7 = true) := by
  rcases opField_cases w with hop | hop | hop | hop | hop | hop | hop | hop
  · simp [decode_op_init hop, decodeNone_eq_err_iff, hop]
  · simp [decode_op_setaddr hop, decodeA7_eq_err_iff, hop]
  · simp [decode_op_append hop, hop]
  · simp [decode_op_execw hop, decodeNone_eq_err_iff, hop]
  · simp [decode_op_execr hop, decodeRwOnly_eq_err_iff, hop]
  · simp [decode_op_rdrx hop, decodeRwOnly_eq_err_iff, hop]
  · simp [decode_op_rdstat hop, decodeNone_eq_err_iff, hop]
  · rw [decode_op_unused hop]
    refine iff_of_false nofun ?_
    rintro (⟨h, -⟩ | ⟨h, -⟩) <;> bv_omega

/-- The decoder reports two of the four command errors (R103). -/
theorem decode_err_cases {e : CmdError} (h : decode v w = .err e) : e = .illegalOpcode ∨ e = .reservedOperand := by
  rcases opField_cases w with hop | hop | hop | hop | hop | hop | hop | hop
  · rw [decode_op_init hop, decodeNone_eq_err_iff] at h; exact .inr h.2.symm
  · rw [decode_op_setaddr hop, decodeA7_eq_err_iff] at h; exact .inr h.2.symm
  · rw [decode_op_append hop] at h; cases h
  · rw [decode_op_execw hop, decodeNone_eq_err_iff] at h; exact .inr h.2.symm
  · rw [decode_op_execr hop, decodeRwOnly_eq_err_iff] at h; exact .inl h.2.symm
  · rw [decode_op_rdrx hop, decodeRwOnly_eq_err_iff] at h; exact .inl h.2.symm
  · rw [decode_op_rdstat hop, decodeNone_eq_err_iff] at h; exact .inr h.2.symm
  · rw [decode_op_unused hop] at h; cases h; exact .inl rfl

/-- No row accepts a word exactly when the word is illegal in one of the two ways (R103). -/
theorem no_row_accepts_iff :
    (∀ r ∈ opcodeTable, r.accepts v w = false) ↔
      decode v w = .err .illegalOpcode ∨ decode v w = .err .reservedOperand := by
  have hnone : (∀ r ∈ opcodeTable, r.accepts v w = false) ↔ ¬ ∃ i, decode v w = .ok i := by
    rw [exists_decode_iff]
    simp
  rw [hnone]
  cases hd : decode v w with
  | ok i => simp
  | err e => rcases decode_err_cases hd with rfl | rfl <;> simp

/-- Settles O6: the two opcodes are those of the commands that only the read/write variant has, and the decoder looks at
the variant there alone. -/
theorem variantChangesTwoOpcodesOnly : Obligations.VariantChangesTwoOpcodesOnly := by
  refine fun w => ⟨?_, fun h5 h6 => ?_⟩
  · rintro (hop | hop)
    · exact ⟨decode_op_execr hop, _, decode_op_execr hop⟩
    · exact ⟨decode_op_rdrx hop, _, decode_op_rdrx hop⟩
  · simp only [decode, if_neg h5, if_neg h6]

/-- Settles O1: each word is evaluated. -/
theorem opcodeMapWordsDecode : Obligations.OpcodeMapWordsDecode := by
  unfold Obligations.OpcodeMapWordsDecode
  decide

end Sys2Proof
end

section
/-! PROOFS. The turn of the block's agent: the word that it accepts in `IDLE`, the labelled step that it runs in any
other phase, the response that ends a command, and that a state of the invariant always has a next one. -/

namespace Sys2Proof
namespace Machine

variable {s g t : State} {w : Word} {ws : List Word} {i : Instr} {l : Label} {b : Bool}

/-! ### The word accepted in `IDLE` -/

/-- The step that accepts a word which decodes is the command (R91, R99). -/
theorem step_of_decode_ok (hg : grant s = some g) (hp : s.ph = .idle) (hc : s.cmds = w :: ws)
    (hd : decode s.cfg.variant w = .ok i) : step s = exec i { g with cmds := ws } := by
  have hf := grant_frame hg
  rw [step_of_grant hg, blockStep_idle (by rw [hf]; exact hp),
    hostStep_of_decode (by rw [hf]; exact hc) (by rw [hf]; exact hd)]

/-- The step that accepts a word which does not decode is a command error, and changes nothing else (R103, R220). -/
theorem step_of_decode_err {e : CmdError} (hg : grant s = some g) (hp : s.ph = .idle) (hc : s.cmds = w :: ws)
    (hd : decode s.cfg.variant w = .err e) :
    step s = .next { g with cmds := ws, rsp := some (responseWord true false (errorCode e)) } := by
  have hf := grant_frame hg
  rw [step_of_grant hg, blockStep_idle (by rw [hf]; exact hp),
    hostStep_of_err (by rw [hf]; exact hc) (by rw [hf]; exact hd)]
  rfl

/-- In `IDLE` a step completes no micro-operation (R36, R93). -/
theorem completedOp_idle (hp : s.ph = .idle) : completedOp s = none := by
  cases hg : grant s with
  | none => exact completedOp_none hg
  | some g =>
    have hgp : g.ph = .idle := by rw [grant_frame hg]; exact hp
    simp [completedOp, hg, currentOp, hgp]

/-- Settles O5, from the decoder's two errors and the step that accepts a word of either. -/
theorem illegalAndReservedWords : Obligations.IllegalAndReservedWords := by
  refine ⟨fun v w => ⟨decode_eq_illegalOpcode_iff, decode_eq_reservedOperand_iff, no_row_accepts_iff, ?_⟩, ?_, ?_⟩
  · intro i h
    exact (decode_eq_ok_iff.1 h).1.symm
  · intro s g w ws hg hp hc
    have hop := completedOp_idle hp
    exact ⟨fun hd => ⟨step_of_decode_err hg hp hc hd, hop⟩, fun hd => ⟨step_of_decode_err hg hp hc hd, hop⟩⟩
  · intro v
    exact ⟨decode_op_unused (.inl (by decide)), decode_op_unused (.inr (by decide))⟩

/-- Settles O8, with the frame of what the turn finds. -/
theorem stepRunsTheDecodedCommand : Obligations.StepRunsTheDecodedCommand :=
  fun _ _ _ _ _ hg hp hc hd => ⟨step_of_decode_ok hg hp hc hd, grant_frame hg⟩

/-- Settles O9: `withFetchWord` schedules the turn and puts the word first, and the word decodes to the command. -/
theorem fetchWordIsRunNext : Obligations.FetchWordIsRunNext := by
  intro s i hi
  have hw : BitVec.ofNat 16 ((encode i).toNat % 2 ^ 16) = encode i := by
    rw [Nat.mod_eq_of_lt (encode i).isLt, BitVec.ofNat_toNat, BitVec.setWidth_eq]
  have hd : decode s.cfg.variant (BitVec.ofNat 16 ((encode i).toNat % 2 ^ 16)) = .ok i :=
    decode_eq_ok_iff.2 ⟨hw, hi⟩
  exact step_of_decode_ok (s := s.withFetchWord 16 (encode i).toNat) rfl rfl rfl hd

/-! ### The labelled step outside `IDLE` -/

/-- The step of a busy block is the labelled step at its position (R93, R141). -/
theorem step_of_label (hg : grant s = some g) (hp : s.ph ≠ .idle) (hl : labelAt s.ph s.u = some l) :
    step s = runLabel l g := by
  have hf := grant_frame hg
  rw [step_of_grant hg, blockStep_busy (by rw [hf]; exact hp), engineStep_of_label (by rw [hf]; exact hl)]

/-- No command has a step while a transaction runs (R93). -/
theorem exec_busy (i : Instr) (hp : s.ph ≠ .idle) : exec i s = .refused .hostBusy := by
  cases i <;> exact whenIdle_busy hp _

/-- Settles O10: a labelled step accepts no word. -/
theorem engineRunsWhileBusy : Obligations.EngineRunsWhileBusy := by
  refine ⟨fun s g l hg hp hl => ⟨step_of_label hg hp hl, fun t ht => ?_⟩, fun s i hp => exec_busy i hp⟩
  rw [step_of_label hg hp hl] at ht
  obtain ⟨-, -, hcmds⟩ := runLabel_buffer ht
  rw [hcmds, grant_frame hg]

/-! ### The response that ends a command -/

/-- A response stands on the port exactly when the block is in `IDLE` (R92). -/
def AnsweredIffIdle (t : State) : Prop := t.rsp.isSome = true ↔ t.ph = .idle

theorem AnsweredIffIdle.of_respond (hp : s.ph = .idle) (e r : Bool) (v : Byte) :
    AnsweredIffIdle (respond e r v s) := iff_of_true rfl hp

theorem AnsweredIffIdle.of_busy (hr : t.rsp = none) (hp : t.ph ≠ .idle) : AnsweredIffIdle t :=
  iff_of_false (by simp [hr]) hp

/-- A command answers in its one step, or starts a transaction and does not answer yet. -/
theorem exec_answered (hr : s.rsp = none) (h : exec i s = .next t) : AnsweredIffIdle t := by
  cases i with
  | init => obtain ⟨hp, h⟩ := whenIdle_next h; cases h; exact .of_respond hp ..
  | setaddr a7 => obtain ⟨hp, h⟩ := whenIdle_next h; cases h; exact .of_respond hp ..
  | append b8 => obtain ⟨hp, ⟨-, rfl⟩ | ⟨-, -, rfl⟩ | ⟨-, -, rfl⟩⟩ := execAppend_cases h <;> exact .of_respond hp ..
  | execw =>
    obtain ⟨hp, ⟨-, rfl⟩ | ⟨-, -, rfl⟩ | ⟨-, -, rfl⟩⟩ := execExecw_cases h
    · exact .of_respond hp ..
    · exact .of_busy hr nofun
    · exact .of_busy hr nofun
  | execr n8 =>
    obtain ⟨hp, ⟨-, rfl⟩ | ⟨-, -, rfl⟩ | ⟨-, -, rfl⟩⟩ := execExecr_cases h
    · exact .of_respond hp ..
    · exact .of_respond hp ..
    · exact .of_busy hr nofun
  | rdrx n8 => obtain ⟨hp, ⟨-, rfl⟩ | ⟨-, -, rfl⟩ | ⟨-, -, rfl⟩⟩ := execRdrx_cases h <;> exact .of_respond hp ..
  | rdstat => obtain ⟨hp, h⟩ := whenIdle_next h; cases h; exact .of_respond hp ..

/-- The end of a labelled step answers at `AF0` and `SP6`, which leave the block in `IDLE`, and nowhere else. -/
theorem conclude_answered (hr : s.rsp = none) (hp : s.ph ≠ .idle) (h : conclude l b s = .next t) :
    AnsweredIffIdle t := by
  rcases conclude_advance_or l with ⟨ha, -⟩ | rfl | rfl | rfl | rfl | rfl | rfl | rfl | rfl | rfl | rfl
  · rw [ha] at h; cases h; exact .of_busy hr hp
  · obtain rfl := loadByte_next (n := 0) h; exact .of_busy hr nofun
  · cases h; unfold nextBit; split <;> exact .of_busy hr hp
  · cases h; cases b <;> exact .of_busy hr nofun
  · obtain ⟨-, -, h⟩ | rfl | ⟨-, -, rfl⟩ := dispatchAfterAck_cases h
    · obtain rfl := loadByte_next h; exact .of_busy hr nofun
    · exact .of_busy hr nofun
    · exact .of_busy hr nofun
  · cases h; exact .of_respond rfl ..
  · cases h; exact .of_busy hr hp
  · cases h; unfold nextBit; split <;> exact .of_busy hr hp
  · obtain ⟨-, rfl⟩ := storeReceived_next h; exact .of_busy hr hp
  · cases h
    unfold nextReceived
    split
    · exact .of_busy hr hp
    · exact .of_busy hr nofun
  · cases h; exact .of_respond rfl ..

/-- A labelled step answers exactly when it leaves the block in `IDLE`. -/
theorem runLabel_answered (hr : s.rsp = none) (hp : s.ph ≠ .idle) (h : runLabel l s = .next t) :
    AnsweredIffIdle t := by
  obtain ⟨m, b, hm, hc⟩ | ⟨-, rfl⟩ := runLabel_cases h
  · have hf := run_frame hm
    exact conclude_answered (by rw [hf]; exact hr) (by rw [hf]; exact hp) hc
  · exact .of_busy hr hp

/-- Settles O11, by what the turn does: a command error, a command, or a labelled step. -/
theorem responseEndsTheCommand : Obligations.ResponseEndsTheCommand := by
  intro s g t hg hwork h
  have hf := grant_frame hg
  have hr : g.rsp = none := by rw [hf]
  rw [step_of_grant hg] at h
  obtain ⟨hp, h⟩ | ⟨hp, l, -, h⟩ := blockStep_cases h
  · obtain ⟨hc, -⟩ | ⟨w, ws, e, -, -, rfl⟩ | ⟨w, ws, i, -, -, h⟩ := hostStep_cases h
    · rw [hf] at hp hc
      exact absurd hwork (not_or.2 ⟨not_not.2 hp, not_not.2 hc⟩)
    · exact AnsweredIffIdle.of_respond (s := { g with cmds := ws }) hp ..
    · exact exec_answered (s := { g with cmds := ws }) hr h
  · exact runLabel_answered hr hp h

/-! ### A next state -/

/-- Every command has a next state in `IDLE`. -/
theorem exists_exec (i : Instr) (hp : s.ph = .idle) : ∃ t, exec i s = .next t := by
  cases i with
  | init => exact ⟨_, whenIdle_idle hp _⟩
  | setaddr a7 => exact ⟨_, whenIdle_idle hp _⟩
  | append b8 =>
    simp only [exec, execAppend, whenIdle_idle hp]
    split_ifs <;> exact ⟨_, rfl⟩
  | execw =>
    simp only [exec, execExecw, whenIdle_idle hp]
    split_ifs
    · exact ⟨_, rfl⟩
    · cases s.cfg.variant <;> exact ⟨_, rfl⟩
  | execr n8 =>
    simp only [exec, execExecr, whenIdle_idle hp]
    cases s.cfg.variant
    · exact ⟨_, rfl⟩
    · dsimp only; split_ifs <;> exact ⟨_, rfl⟩
  | rdrx n8 =>
    simp only [exec, execRdrx, whenIdle_idle hp]
    cases s.cfg.variant
    · exact ⟨_, rfl⟩
    · dsimp only; split_ifs <;> exact ⟨_, rfl⟩
  | rdstat => exact ⟨_, whenIdle_idle hp _⟩

/-- The host's turn has a next state, whatever word is offered. -/
theorem exists_hostStep (hp : s.ph = .idle) : ∃ t, hostStep s = .next t := by
  cases hc : s.cmds with
  | nil => exact ⟨s, hostStep_nil hc⟩
  | cons w ws =>
    cases hd : decode s.cfg.variant w with
    | err e => exact ⟨_, hostStep_of_err hc hd⟩
    | ok i => rw [hostStep_of_decode hc hd]; exact exists_exec i hp

/-- The dispatch after an acknowledged byte has a next state while `LEN` is within the buffer. -/
theorem exists_dispatchAfterAck (hlen : s.len.toNat ≤ 33) : ∃ t, dispatchAfterAck s = .next t := by
  cases hm : s.mode with
  | w =>
    by_cases hk : s.k.toNat + 1 < s.len.toNat
    · rw [dispatchAfterAck_moreBytes hm hk]
      refine ⟨_, loadByte_ok ?_⟩
      rw [BitVec.toNat_add]
      exact (Nat.mod_le _ _).trans_lt (hk.trans_le hlen)
    · exact ⟨_, dispatchAfterAck_lastByte hm hk⟩
  | r =>
    by_cases hn : s.nreq = 0
    · exact ⟨_, dispatchAfterAck_readNone hm hn⟩
    · exact ⟨_, dispatchAfterAck_read hm hn⟩

/-- Under the invariant every labelled step has a next state: the line it reads is released, and the index it uses has a
register (R28, R33, R125). -/
theorem exists_runLabel (h : Inv s) (hl : labelAt s.ph s.u = some l) : ∃ t, runLabel l s = .next t := by
  have hd := h.drivesAt hl
  cases l
  case st4 => exact ⟨_, loadByte_ok (n := 0) (by decide)⟩
  case tx9 => exact ⟨_, runLabel_tx9 s (hd.sda _ rfl)⟩
  case ak2 => exact exists_dispatchAfterAck h.lenLe
  case rx2 => exact ⟨_, runLabel_rx2 s hd.scl⟩
  case rx3 => exact ⟨_, runLabel_rx3 s (hd.sda _ rfl)⟩
  case rx6 =>
    obtain ⟨-, hj⟩ := h.jBound (labelAt_iff.1 hl).1
    exact ⟨_, storeReceived_ok (by bv_omega)⟩
  case rx8 => exact ⟨_, runLabel_rx8 s⟩
  case rx11 => exact ⟨_, runLabel_rx11 s hd.scl⟩
  all_goals exact ⟨_, rfl⟩

/-- Settles O48: `BUS` and `rst` always have a step, and the block's agent has one in every state of the invariant. -/
theorem noFaultAndNoRefusal : Obligations.NoFaultAndNoRefusal := by
  intro s h
  obtain ⟨a, b, es, -, hs⟩ | ⟨es, -, hs⟩ | ⟨g, hg, hs⟩ := step_shape s
  · exact ⟨_, hs⟩
  · exact ⟨_, hs⟩
  · have hgi : Inv g := by
      rw [grant_frame hg]
      exact h.congr rfl rfl
    rw [hs]
    by_cases hp : g.ph = .idle
    · rw [blockStep_idle hp]
      exact exists_hostStep hp
    · obtain ⟨l, hl⟩ := hgi.label hp
      rw [blockStep_busy hp, engineStep_of_label hl]
      exact exists_runLabel hgi hl

end Machine
end Sys2Proof
end

section
/-! PROOFS. The fields of a response word, and the pseudo-instruction `APPENDS`: by induction on its bytes, from the
three cases of one `APPEND`. -/

namespace Sys2Proof
namespace Machine

variable {s t u : State} {b : Byte} {bs : List Byte}

/-- Settles O7: `V` is the low half of the word, and the other fields are looked up for each value of the three. -/
theorem responseWordFields : Obligations.ResponseWordFields := by
  intro e r v
  have hv : (responseWord e r v).extractLsb' 0 8 = v := BitVec.extractLsb'_append_eq_right
  refine ⟨responseWord_error e r v, ?_, ?_, hv⟩ <;>
    (revert v; cases e <;> cases r <;> decide +kernel)

/-! ### One `APPEND` -/

/-- With no address set `APPEND` is a command error (R185). -/
theorem exec_append_noAddress (b : Byte) (hp : s.ph = .idle) (hl : s.len = 0) :
    exec (.append b) s = .next { s with rsp := some 0x8003 } :=
  (whenIdle_idle hp _).trans (if_pos hl)

/-- Below the capacity `APPEND` stores its byte (R184). -/
theorem exec_append_stored (b : Byte) (hp : s.ph = .idle) (h1 : 1 ≤ s.len.toNat) (h33 : s.len.toNat < 33) :
    exec (.append b) s = .next (respond false true 0x00 (setLen (s.len + 1) (writeTb s.len.toNat b s))) := by
  have h0 : s.len ≠ 0 := by bv_omega
  exact (whenIdle_idle hp _).trans ((if_neg h0).trans (if_pos h33))

/-- At the capacity `APPEND` drops its byte, with the answer of a stored one (R186). -/
theorem exec_append_dropped (b : Byte) (hp : s.ph = .idle) (h33 : s.len.toNat = 33) :
    exec (.append b) s = .next { s with rsp := some 0x0100 } := by
  have h0 : s.len ≠ 0 := by bv_omega
  exact (whenIdle_idle hp _).trans ((if_neg h0).trans (if_neg (by simp [h33])))

/-! ### A list of them -/

theorem execAll_cons {i : Instr} {is : List Instr} (h : exec i s = .next t) :
    execAll (i :: is) s = execAll is t := by
  simp only [execAll, h]

/-- `t` is `s` with the bytes `bs` appended to the buffer, as far as its capacity goes (R184, R186). -/
structure Appended (bs : List Byte) (s t : State) : Prop where
  frame : t = { s with tb := t.tb, len := t.len, rsp := t.rsp }
  len : t.len.toNat = min (s.len.toNat + bs.length) 33
  bytes : ∀ n, n < 33 → readTb t n =
    if s.len.toNat ≤ n ∧ n < s.len.toNat + bs.length then bs[n - s.len.toNat]? else readTb s n
  answer : t.rsp = if bs = [] then s.rsp else some 0x0100

theorem Appended.nil (h33 : s.len.toNat ≤ 33) : Appended [] s s where
  frame := rfl
  len := by simp [h33]
  bytes n _ := by rw [if_neg (by simp)]
  answer := rfl

/-- A byte stored, and then the others appended. -/
theorem Appended.cons_stored (h33 : s.len.toNat < 33)
    (h : Appended bs (respond false true 0x00 (setLen (s.len + 1) (writeTb s.len.toNat b s))) t) :
    Appended (b :: bs) s t := by
  have hlen : (s.len + 1).toNat = s.len.toNat + 1 := by bv_omega
  refine ⟨h.frame.trans rfl, ?_, fun n hn => ?_, ?_⟩
  · rw [h.len, respond_len, setLen_len, hlen, List.length_cons]
    omega
  · rw [h.bytes n hn, respond_len, setLen_len, hlen, List.length_cons, readTb_eq hn, readTb_eq hn]
    rcases Nat.lt_trichotomy n s.len.toNat with hlt | rfl | hgt
    · rw [if_neg (by omega), if_neg (by omega)]
      simp [Memory.read_write_other _ _ hlt.ne]
    · rw [if_neg (by omega), if_pos (by omega)]
      simp
    · have hidx : n - s.len.toNat = n - (s.len.toNat + 1) + 1 := by omega
      have hrange : s.len.toNat + 1 ≤ n ∧ n < s.len.toNat + 1 + bs.length ↔
          s.len.toNat ≤ n ∧ n < s.len.toNat + (bs.length + 1) := by omega
      rw [hidx, List.getElem?_cons_succ]
      refine if_congr hrange rfl ?_
      simp [Memory.read_write_other _ _ hgt.ne']
  · rw [h.answer]
    simp

/-- A byte dropped, and then the others. -/
theorem Appended.cons_dropped (h33 : s.len.toNat = 33) (h : Appended bs { s with rsp := some 0x0100 } t) :
    Appended (b :: bs) s t := by
  refine ⟨h.frame.trans rfl, ?_, fun n hn => ?_, ?_⟩
  · rw [h.len, h33, List.length_cons]
    omega
  · rw [h.bytes n hn, h33, if_neg (by omega), if_neg (by omega)]
    rfl
  · rw [h.answer]
    simp

/-- `APPENDS` with an address set appends its bytes. -/
theorem execAll_expandAppends (bs : List Byte) (hp : s.ph = .idle) (h1 : 1 ≤ s.len.toNat) (h33 : s.len.toNat ≤ 33) :
    ∃ t, execAll (expandAppends bs) s = .next t ∧ Appended bs s t := by
  induction bs generalizing s with
  | nil => exact ⟨s, rfl, .nil h33⟩
  | cons b bs ih =>
    by_cases hfull : s.len.toNat = 33
    · obtain ⟨t, ht, ha⟩ := ih (s := { s with rsp := some 0x0100 }) hp h1 h33
      exact ⟨t, (execAll_cons (exec_append_dropped b hp hfull)).trans ht, ha.cons_dropped hfull⟩
    · have hlt : s.len.toNat < 33 := by omega
      have hlen : (s.len + 1).toNat = s.len.toNat + 1 := by bv_omega
      obtain ⟨t, ht, ha⟩ := ih (s := respond false true 0x00 (setLen (s.len + 1) (writeTb s.len.toNat b s))) hp
        (hlen ▸ Nat.le_add_left 1 _) (hlen ▸ hlt)
      exact ⟨t, (execAll_cons (exec_append_stored b hp h1 hlt)).trans ht, ha.cons_stored hlt⟩

/-- `APPENDS` with no address set is a command error, once for each byte (R185). -/
theorem execAll_expandAppends_noAddress (bs : List Byte) (hp : s.ph = .idle) (hl : s.len = 0) :
    execAll (expandAppends (b :: bs)) s = .next { s with rsp := some 0x8003 } := by
  induction bs generalizing b s with
  | nil => exact execAll_cons (exec_append_noAddress b hp hl)
  | cons c bs ih => exact (execAll_cons (exec_append_noAddress b hp hl)).trans (ih hp hl)

/-- Settles O18, by induction on the bytes. -/
theorem appendsStoresUpToTheCapacity : Obligations.AppendsStoresUpToTheCapacity := by
  intro s bs hp
  refine ⟨fun h1 h33 => ?_, fun hl hbs => ?_, rfl⟩
  · obtain ⟨t, ht, ha⟩ := execAll_expandAppends bs hp h1 h33
    exact ⟨t, ht, ha.frame, ha.len, ha.bytes, fun hbs => ha.answer.trans (if_neg hbs)⟩
  · obtain ⟨b, bs, rfl⟩ := List.exists_cons_of_ne_nil hbs
    exact execAll_expandAppends_noAddress bs hp hl

end Machine
end Sys2Proof
end

section
/-! PROOFS. The Line Driver: a drive step sets one line and leaves the rest (R121 to R123), a read depends on the drive
mode and on the level (R124 to R126), and the engine reads at four labels, each with its line released. -/

namespace Sys2Proof
namespace Machine

variable {s t : State} {l : Label} {x y : Line} {d : Drive}

/-! ### The drive mode of one line -/

@[simp] theorem driveOf_setDrive_same (x : Line) (d : Drive) (s : State) : driveOf (setDrive x d s) x = d := by
  cases x <;> rfl

theorem driveOf_setDrive_of_ne (h : y ≠ x) : driveOf (setDrive x d s) y = driveOf s y := by
  cases x <;> cases y
  case scl.sda | sda.scl => rfl
  all_goals exact absurd rfl h

@[simp] theorem extOf_setDrive (x y : Line) (d : Drive) (s : State) : extOf (setDrive x d s) y = extOf s y := by
  cases x <;> rfl

/-- A write of a drive mode touches the two drive modes alone (R23). -/
theorem setDrive_frame (x : Line) (d : Drive) (s : State) :
    setDrive x d s = { s with drvScl := (setDrive x d s).drvScl, drvSda := (setDrive x d s).drvSda } := by
  cases x <;> rfl

/-- Writing the mode that a line has changes nothing. -/
theorem setDrive_of_driveOf (h : driveOf s x = d) : setDrive x d s = s := by
  subst h
  cases x <;> rfl

/-! ### The level of one line (R27) -/

theorem level_of_drivenLow (h : driveOf s x = .drivenLow) : level s x = false := by simp [level, h]

theorem level_of_released (h : driveOf s x = .released) : level s x = !extOf s x := by simp [level, h]

/-! ### The micro-operations -/

/-- What a step that sets line `x` to `d` leaves (R121, R122): `x` at `d`, the other line and all else as before. -/
structure SetsLine (x : Line) (d : Drive) (s t : State) : Prop where
  set : driveOf t x = d
  other : ∀ y, y ≠ x → driveOf t y = driveOf s y
  frame : t = { s with drvScl := t.drvScl, drvSda := t.drvSda }
  idem : driveOf s x = d → t = s

theorem SetsLine.of_setDrive (x : Line) (d : Drive) (s : State) : SetsLine x d s (setDrive x d s) where
  set := driveOf_setDrive_same x d s
  other _ := driveOf_setDrive_of_ne
  frame := setDrive_frame x d s
  idem := setDrive_of_driveOf

/-- Settles O28: each of the three is a `setDrive` of its line. -/
theorem driveMicroOperations : Obligations.DriveMicroOperations := by
  intro s x
  have hlow := SetsLine.of_setDrive x .drivenLow s
  have hrel := SetsLine.of_setDrive x .released s
  have hlevel : level (setDrive x .released s) x = !extOf s x := by rw [level_of_released hrel.set, extOf_setDrive]
  exact ⟨⟨_, rfl, hlow.set, level_of_drivenLow hlow.set, hlow.other, hlow.frame, hlow.idem⟩,
    ⟨_, rfl, hrel.set, hlevel, hrel.other, hrel.frame, hrel.idem⟩, rfl, rfl⟩

theorem run_sample_of_released (h : driveOf s x = .released) : (MicroOp.sample x).run s = .done s (level s x) :=
  if_pos h

theorem run_sample_of_driven (h : driveOf s x ≠ .released) : (MicroOp.sample x).run s = .refused := if_neg h

theorem run_waitH_of_released (h : driveOf s x = .released) :
    (MicroOp.waitH x).run s = if level s x then .done s false else .held := if_pos h

theorem run_waitH_of_driven (h : driveOf s x ≠ .released) : (MicroOp.waitH x).run s = .refused := if_neg h

/-- Settles O29: the level of a released line is HIGH exactly when no other participant holds it. -/
theorem sampleAndWaitOfAReleasedLine : Obligations.SampleAndWaitOfAReleasedLine := by
  intro s x h
  rw [run_sample_of_released h, run_waitH_of_released h, level_of_released h]
  exact ⟨rfl, fun he => by rw [he]; rfl, fun he => by rw [he]; rfl⟩

/-- The engine reads `SCL` or `SDA` at labels whose drive modes have that line released (R153, R154, R145, R160). -/
theorem drivesAt_of_read (h : microOp l s = .sample x ∨ microOp l s = .waitH x) :
    (x = .scl ∧ (drivesAt l s).1 = .released) ∨ (x = .sda ∧ (drivesAt l s).2 = some .released) := by
  cases l
  case tx9 | rx3 =>
    have hx : x = .sda := by simpa [microOp, eq_comm] using h
    exact .inr ⟨hx, rfl⟩
  case rx2 | rx11 =>
    have hx : x = .scl := by simpa [microOp, eq_comm] using h
    exact .inl ⟨hx, rfl⟩
  case rx8 =>
    simp only [microOp] at h
    split at h <;> simp at h
  all_goals simp [microOp] at h

/-- The micro-operation of an engine step is that of the label that `upc` names (R36, R141). -/
theorem currentOp_cases {o : MicroOp} (h : currentOp s = some o) : ∃ l, labelAt s.ph s.u = some l ∧ microOp l s = o :=
  Option.map_eq_some_iff.1 h

/-- A state of the invariant has the drive modes of its label, and every read is at a label with the line released. -/
theorem Inv.released_of_read {o : MicroOp} (hi : Inv s) (h : currentOp s = some o)
    (hr : o = .sample x ∨ o = .waitH x) : driveOf s x = .released := by
  obtain ⟨l, hl, rfl⟩ := currentOp_cases h
  obtain ⟨rfl, hd⟩ | ⟨rfl, hd⟩ := drivesAt_of_read hr
  · exact (hi.drvScl_at hl).trans hd
  · exact hi.drvSda_at hl hd

/-- Settles O30: both reads test the drive mode first, and the engine's reads never fail that test. -/
theorem readsOnlyOfReleasedLines : Obligations.ReadsOnlyOfReleasedLines :=
  ⟨fun _ _ h => ⟨run_sample_of_driven h, run_waitH_of_driven h⟩, fun _ _ hi h =>
    h.elim (hi.released_of_read · (.inl rfl)) (hi.released_of_read · (.inr rfl))⟩

/-- The micro-operations that are line events (R130). -/
theorem lineEvent_ne_none_iff (o : MicroOp) :
    o.lineEvent ≠ none ↔ ∃ x, o = .dl x ∨ o = .rl x ∨ o = .setSda true ∨ o = .setSda false := by
  cases o with
  | dl x => exact iff_of_true (Option.some_ne_none _) ⟨x, .inl rfl⟩
  | rl x => exact iff_of_true (Option.some_ne_none _) ⟨x, .inr (.inl rfl)⟩
  | setSda b => exact iff_of_true (Option.some_ne_none _) ⟨.sda, by cases b <;> simp⟩
  | sample _ | waitH _ | dly _ | book => exact iff_of_false (fun h => h rfl) (by simp)

/-- Settles O31: a completed micro-operation sets the line of its line event, or has none and keeps the state. -/
theorem lineEventsAreTheDriveSteps : Obligations.LineEventsAreTheDriveSteps := by
  intro o s t b h
  obtain ⟨x, d, rfl, he⟩ | ⟨rfl, he⟩ := run_done_cases h
  · refine ⟨fun y e hy => ?_, fun hn => ?_, lineEvent_ne_none_iff o⟩
    · cases he.symm.trans hy
      exact driveOf_setDrive_same x d s
    · cases he.symm.trans hn
  · exact ⟨fun y e hy => (by cases he.symm.trans hy), fun _ => rfl, lineEvent_ne_none_iff o⟩

end Machine
end Sys2Proof
end

section
/-! PROOFS. The routines of the engine, step by step. A run of labelled steps and the micro-operations that it completes
are built from single turns, run symbolically; the bit loop is an induction on the index of the bit. -/

namespace Sys2Proof
namespace Machine

variable {s t u g m : State} {l : Label} {b : Bool} {ops ops' : List MicroOp} {n n' : Nat}

/-! ### Runs and their micro-operations -/

/-- `n` steps from `s` lead to `t` and complete the micro-operations `ops`. -/
structure Runs (n : Nat) (s : State) (ops : List MicroOp) (t : State) : Prop where
  ran : runSteps n s = .next t
  trace : opTrace n s = ops

theorem Runs.nil (s : State) : Runs 0 s [] s := ⟨rfl, rfl⟩

/-- A turn at the label `l`, and what follows it: the turn is granted in `g`, the micro-operation completes in `m`, and
the end of the step leads on to `u` (R141). -/
theorem Runs.step (l : Label) (hg : grant s = some g) (hl : labelAt g.ph g.u = some l)
    (hm : (microOp l g).run g = .done m b) (hc : conclude l b m = .next u) (h : Runs n u ops t) :
    Runs (n + 1) s (microOp l g :: ops) t := by
  have hp : g.ph ≠ .idle := by
    intro hp
    rw [hp, labelAt_idle] at hl
    cases hl
  have hs : Machine.step s = .next u := by
    rw [step_of_grant hg, blockStep_busy hp, engineStep_of_label hl, runLabel_of_done rfl hm, hc]
  have ho : completedOp s = some (microOp l g) := by simp [completedOp, hg, currentOp, hl, hm]
  exact ⟨(runSteps_succ n hs).trans h.ran, by rw [opTrace_succ n hs, ho, h.trace]; rfl⟩

/-- One run after another. -/
theorem Runs.trans (h : Runs n s ops t) (h' : Runs n' t ops' u) : Runs (n + n') s (ops ++ ops') u :=
  ⟨(runSteps_add n' h.ran).trans h'.ran, by rw [opTrace_add n' h.ran, h.trace, h'.trace]⟩

/-- A state is itself with the position and the schedule written out, so that its turns can be run symbolically. -/
theorem exists_at_position {p : Phase} {v : BitVec 5} {es : List Event} (hp : s.ph = p) (hu : s.u = v)
    (hs : s.sched = es) : ∃ r : State, s = { r with ph := p, u := v, sched := es } := ⟨s, by rw [← hp, ← hu, ← hs]⟩

/-! ### START and STOP -/

/-- Settles O32: the five turns, whatever pulls each of them finds. -/
theorem startRoutine : Obligations.StartRoutine := by
  intro s hp hu hs
  obtain ⟨r, rfl⟩ := exists_at_position hp hu hs
  have h : Runs 5 { r with ph := .start, u := 0, sched := [] } _ _ :=
    .step .st0 rfl rfl rfl rfl <| .step .st1 rfl rfl rfl rfl <| .step .st2 rfl rfl rfl rfl <|
    .step .st3 rfl rfl rfl rfl <| .step .st4 rfl rfl rfl rfl <| .nil _
  exact ⟨_, h.ran, h.trace, by rw [lineEvents, h.trace]; rfl, rfl⟩

/-- The value of the response of a transaction that reached STOP (R97, R158). -/
theorem responseWord_stop (x : XferMode) (c : BitVec 8) :
    responseWord false true (if x = .r then c else 0x00) = if x = .r then responseWord false true c else 0x0100 := by
  cases x
  · exact responseWord_done
  · rfl

/-- Settles O39: the seven turns, of which the last ends the transaction. -/
theorem stopRoutine : Obligations.StopRoutine := by
  intro s hp hu hs
  obtain ⟨r, rfl⟩ := exists_at_position hp hu hs
  have h : Runs 7 { r with ph := .stop, u := 0, sched := [] } _ _ :=
    .step .sp0 rfl rfl rfl rfl <| .step .sp1 rfl rfl rfl rfl <| .step .sp2 rfl rfl rfl rfl <|
    .step .sp3 rfl rfl rfl rfl <| .step .sp4 rfl rfl rfl rfl <| .step .sp5 rfl rfl rfl rfl <|
    .step .sp6 rfl rfl rfl rfl <| .nil _
  refine ⟨_, h.ran, h.trace, ?_⟩
  rw [← responseWord_stop]
  rfl

/-! ### A transmitted byte -/

/-- The end of a bit counts `I` down and goes round the loop, or leaves it after bit 0 (R144, R153). -/
theorem nextBit_eq (s : State) :
    nextBit s = { s with u := if s.i = 0 then 6 else 0, i := if s.i = 0 then 0 else s.i - 1 } := by
  by_cases hi : s.i = 0
  · rw [nextBit_last hi, if_pos hi, if_pos hi, ← hi]
    rfl
  · rw [nextBit_more hi, if_neg hi, if_neg hi]
    rfl

/-- `TX5` and `RX5` both end in this way (R144, R153). -/
theorem next_nextBit (s : State) : (.next (nextBit s) : Host.Outcome State Fault Refusal) =
    .next { s with u := if s.i = 0 then 6 else 0, i := if s.i = 0 then 0 else s.i - 1 } :=
  congrArg Host.Outcome.next (nextBit_eq s)

/-- One bit of the loop: from `TX0` to `TX0` of the next bit, or to `TX6` after bit 0 (R144). -/
theorem transmitBit (hp : s.ph = .byteTransfer) (hu : s.u = 0) (hs : s.sched = []) :
    ∃ t, Runs 6 s (txBitOps s.sh s.i) t ∧
      t = { s with
        drvScl := .drivenLow, drvSda := driveOfBit (bitAt s.sh s.i), u := if s.i = 0 then 6 else 0,
        i := if s.i = 0 then 0 else s.i - 1, rsp := none, extScl := t.extScl, extSda := t.extSda, tick := t.tick } := by
  obtain ⟨r, rfl⟩ := exists_at_position hp hu hs
  have h : Runs 6 { r with ph := .byteTransfer, u := 0, sched := [] } _ _ :=
    .step .tx0 rfl rfl rfl rfl <| .step .tx1 rfl rfl rfl rfl <| .step .tx2 rfl rfl rfl rfl <|
    .step .tx3 rfl rfl rfl rfl <| .step .tx4 rfl rfl rfl rfl <|
    .step .tx5 rfl rfl rfl (next_nextBit _) <| .nil _
  exact ⟨_, h, rfl⟩

/-- The bits from bit `n` down to bit 0. -/
def bitsFrom : Nat → List (BitVec 3)
  | 0 => [0]
  | n + 1 => BitVec.ofNat 3 (n + 1) :: bitsFrom n

/-- The loop from bit `n` on (R144). -/
theorem transmitBits {n : Nat} (hn : s.i.toNat = n) (hp : s.ph = .byteTransfer) (hu : s.u = 0) (hs : s.sched = []) :
    ∃ t, Runs (6 * (n + 1)) s ((bitsFrom n).flatMap (txBitOps s.sh)) t ∧
      t = { s with
        drvScl := .drivenLow, drvSda := driveOfBit (bitAt s.sh 0), u := 6, i := 0, rsp := none,
        extScl := t.extScl, extSda := t.extSda, tick := t.tick } := by
  induction n generalizing s with
  | zero =>
    obtain ⟨t, hr, ht⟩ := transmitBit hp hu hs
    have hi : s.i = 0 := BitVec.eq_of_toNat_eq hn
    rw [hi] at hr ht
    exact ⟨t, hr, ht⟩
  | succ n ih =>
    obtain ⟨v, hr, hv⟩ := transmitBit hp hu hs
    have hi : s.i = BitVec.ofNat 3 (n + 1) := by bv_omega
    have h0 : s.i ≠ 0 := by bv_omega
    rw [if_neg h0, if_neg h0] at hv
    obtain ⟨t, hrt, ht⟩ := ih (s := v) (by rw [hv]; bv_omega) (by rw [hv]; exact hp) (by rw [hv]) (by rw [hv]; exact hs)
    have hsh : v.sh = s.sh := by rw [hv]
    refine ⟨t, ?_, ?_⟩
    · have hall := hr.trans hrt
      rw [hsh, hi] at hall
      rw [Nat.mul_succ, Nat.add_comm]
      exact hall
    · rw [hv] at ht
      exact ht

/-- Settles O33: the loop from bit 7 on. -/
theorem transmitBitLoop : Obligations.TransmitBitLoop := by
  intro s hp hu hi hs
  obtain ⟨t, h, ht⟩ := transmitBits (n := 7) (by rw [hi]; rfl) hp hu hs
  exact ⟨t, h.ran, h.trace, ht⟩

/-- Settles O34: the three turns before the sample, and the sample of a released line. -/
theorem ackSampling : Obligations.AckSampling := by
  refine ⟨fun s hp hu hs => ?_, fun s hp hu hd => ?_⟩
  · obtain ⟨r, rfl⟩ := exists_at_position hp hu hs
    have h : Runs 3 { r with ph := .byteTransfer, u := 6, sched := [] } _ _ :=
      .step .tx6 rfl rfl rfl rfl <| .step .tx7 rfl rfl rfl rfl <| .step .tx8 rfl rfl rfl rfl <| .nil _
    exact ⟨_, h.ran, h.trace, rfl⟩
  · have hl : labelAt s.ph s.u = some .tx9 := labelAt_iff.2 ⟨hp, hu⟩
    have hv : level s .sda = !s.extSda := level_of_released (x := .sda) hd
    rw [engineStep_of_label hl, runLabel_tx9 s hd]
    refine ⟨by rw [currentOp, hl]; rfl, fun he => ?_, fun he => ?_⟩
    · rw [hv.trans (congrArg not he)]; rfl
    · rw [hv.trans (congrArg not he)]; rfl

/-- `AK2` is the dispatch, with no line event (R147). -/
theorem engineStep_ak2 (hp : s.ph = .ackOk) (hu : s.u = 2) : engineStep s = dispatchAfterAck s :=
  engineStep_of_label (l := .ak2) (labelAt_iff.2 ⟨hp, hu⟩)

/-- Settles O35: the two turns before the dispatch, and the dispatch by mode and by what is left. -/
theorem ackOkDispatch : Obligations.AckOkDispatch := by
  refine ⟨fun s hp hu hs => ?_, fun s hp hu hm hlen => ⟨fun hk => ?_, fun hk => ?_⟩,
    fun s hp hu hm => ⟨fun hn => ?_, fun hn => ?_⟩⟩
  · obtain ⟨r, rfl⟩ := exists_at_position hp hu hs
    have h : Runs 2 { r with ph := .ackOk, u := 0, sched := [] } _ _ :=
      .step .ak0 rfl rfl rfl rfl <| .step .ak1 rfl rfl rfl rfl <| .nil _
    exact ⟨_, h.ran, h.trace, rfl⟩
  · have hk1 : (s.k + 1).toNat = s.k.toNat + 1 := by bv_omega
    rw [engineStep_ak2 hp hu, dispatchAfterAck_moreBytes hm hk, loadByte_ok (by omega), hk1]
    rfl
  · rw [engineStep_ak2 hp hu, dispatchAfterAck_lastByte hm hk]
    rfl
  · rw [engineStep_ak2 hp hu, dispatchAfterAck_readNone hm hn]
    rfl
  · rw [engineStep_ak2 hp hu, dispatchAfterAck_read hm hn]
    rfl

/-- Settles O36: `AF0` is a bookkeeping step, and R160 has both lines released at it. -/
theorem ackFailureEntry : Obligations.AckFailureEntry := by
  intro s hp hu
  have hl : labelAt s.ph s.u = some .af0 := labelAt_iff.2 ⟨hp, hu⟩
  refine ⟨by rw [currentOp, hl]; rfl, ?_, fun h => ⟨h.drvScl_at hl, h.drvSda_at hl rfl⟩⟩
  rw [engineStep_of_label hl, runLabel_af0]
  rfl

/-! ### A received byte -/

/-- Settles O37: the six turns, with `SCL` HIGH at the wait and `SDA` released at the sample. -/
theorem receiveOneBit : Obligations.ReceiveOneBit := by
  intro s hp hu hd hx hs
  obtain ⟨r, rfl⟩ : ∃ r : State, s = { r with
      ph := .byteReceive, u := 0, drvSda := .released, extScl := false, sched := List.replicate 6 .block } :=
    ⟨s, by rw [← hp, ← hu, ← hd, ← hx, ← hs]⟩
  have h : Runs 6 { r with
      ph := .byteReceive, u := 0, drvSda := .released, extScl := false, sched := List.replicate 6 .block } _ _ :=
    .step .rx0 rfl rfl rfl rfl <| .step .rx1 rfl rfl rfl rfl <| .step .rx2 rfl rfl rfl rfl <|
    .step .rx3 rfl rfl rfl rfl <| .step .rx4 rfl rfl rfl rfl <|
    .step .rx5 rfl rfl rfl (next_nextBit _) <| .nil _
  exact ⟨h.trace, h.ran⟩

/-- `RX8` drives `SDA` low for every byte but the last (R154). -/
theorem run_rx8 (s : State) :
    (microOp .rx8 s).run s = .done { s with drvSda := if lastByte s then s.drvSda else .drivenLow } false := by
  by_cases h : lastByte s = true
  · simp only [microOp, if_pos h]
    rfl
  · simp only [microOp, if_neg h]
    rfl

/-- The last byte asked for is the one at index `NREQ - 1` (R154). -/
theorem lastByte_iff (h : s.j < s.nreq) : lastByte s = true ↔ s.j.toNat + 1 = s.nreq.toNat := by
  rw [lastByte, decide_eq_true_iff]
  bv_omega

/-- `RX17`, as one update of the state: the next byte, or STOP after the last (R155). -/
theorem conclude_rx17 (b : Bool) (hp : s.ph = .byteReceive) (hj : s.j < s.nreq) :
    conclude .rx17 b s = .next { s with
      j := s.j + 1, u := 0, ph := if s.j.toNat + 1 < s.nreq.toNat then .byteReceive else .stop,
      i := if s.j.toNat + 1 < s.nreq.toNat then 7 else s.i } := by
  have hlt : s.j + 1 < s.nreq ↔ s.j.toNat + 1 < s.nreq.toNat := by bv_omega
  refine congrArg Host.Outcome.next ?_
  by_cases h : s.j + 1 < s.nreq
  · rw [nextReceived_enter hp h, if_pos (hlt.1 h), if_pos (hlt.1 h)]
    rfl
  · rw [nextReceived_last h, if_neg (mt hlt.2 h), if_neg (mt hlt.2 h)]
    rfl

/-- From `RX6` to `RX9`: the byte is stored, and `SDA` is driven low unless it is the last (R154, R155). -/
theorem storeAndAnswer {es : List Event} (hp : s.ph = .byteReceive) (hu : s.u = 6) (hj : s.j.toNat < 255)
    (hs : s.sched = List.replicate 3 .block ++ es) :
    Runs 3 s [.book, .dly .rxAckPre, if lastByte s then .book else .dl .sda] { s with
      u := 9, sched := es, rsp := none, rb := Memory.write s.rb s.j.toNat s.sh,
      drvSda := if lastByte s then s.drvSda else .drivenLow } := by
  obtain ⟨r, rfl⟩ := exists_at_position hp hu hs
  have h : Runs 3 { r with ph := .byteReceive, u := 6, sched := List.replicate 3 .block ++ es } _ _ :=
    .step .rx6 rfl rfl rfl (storeReceived_ok hj) <| .step .rx7 rfl rfl rfl rfl <|
    .step .rx8 rfl rfl (run_rx8 _) rfl <| .nil _
  exact h

/-- From `RX9` to `RX17` with `SCL` free to rise: the ninth pulse, after which `SDA` is released (R154). -/
theorem acknowledgmentPulse {es : List Event} (hp : s.ph = .byteReceive) (hu : s.u = 9) (hx : s.extScl = false)
    (hs : s.sched = List.replicate 8 .block ++ es) :
    Runs 8 s
      [.dly .rxAckSetup, .rl .scl, .waitH .scl, .dly .rxAckHigh, .dl .scl, .dly .rxAckLow, .rl .sda, .dly .rxAckFinal]
      { s with u := 17, sched := es, rsp := none, drvScl := .drivenLow, drvSda := .released } := by
  obtain ⟨r, rfl⟩ : ∃ r : State, s = { r with
      ph := .byteReceive, u := 9, extScl := false, sched := List.replicate 8 .block ++ es } :=
    ⟨s, by rw [← hp, ← hu, ← hx, ← hs]⟩
  have h : Runs 8 { r with
      ph := .byteReceive, u := 9, extScl := false, sched := List.replicate 8 .block ++ es } _ _ :=
    .step .rx9 rfl rfl rfl rfl <| .step .rx10 rfl rfl rfl rfl <| .step .rx11 rfl rfl rfl rfl <|
    .step .rx12 rfl rfl rfl rfl <| .step .rx13 rfl rfl rfl rfl <| .step .rx14 rfl rfl rfl rfl <|
    .step .rx15 rfl rfl rfl rfl <| .step .rx16 rfl rfl rfl rfl <| .nil _
  exact h

/-- `RX17`: the next byte, or STOP after the last (R155). -/
theorem byteReceived {es : List Event} (hp : s.ph = .byteReceive) (hu : s.u = 17) (hj : s.j < s.nreq)
    (hs : s.sched = .block :: es) :
    Runs 1 s [.book] { s with
      j := s.j + 1, sched := es, rsp := none, u := 0,
      ph := if s.j.toNat + 1 < s.nreq.toNat then .byteReceive else .stop,
      i := if s.j.toNat + 1 < s.nreq.toNat then 7 else s.i } := by
  obtain ⟨r, rfl⟩ := exists_at_position hp hu hs
  have h : Runs 1 { r with ph := .byteReceive, u := 17, sched := .block :: es } _ _ :=
    .step .rx17 rfl rfl rfl (conclude_rx17 _ rfl hj) <| .nil _
  exact h

/-- Settles O38: the store, the ninth pulse, and the dispatch, one after another. -/
theorem receiveAcknowledgment : Obligations.ReceiveAcknowledgment := by
  intro s hp hu hj hx hs
  have hj255 : s.j.toNat < 255 := by bv_omega
  -- `by exact` lets the run before fix the state before the hypotheses about it are read.
  have hstored := storeAndAnswer (es := List.replicate 9 .block) hp hu hj255 hs
  have hpulsed := hstored.trans (acknowledgmentPulse (es := [.block]) (by exact hp) rfl (by exact hx) rfl)
  have h := hpulsed.trans (byteReceived (by exact hp) rfl (by exact hj) rfl)
  refine ⟨_, h.ran, ?_, ?_, fun n hn => ?_, rfl⟩
  · rw [← if_congr (lastByte_iff hj) rfl rfl]
    exact h.trace
  · exact (readRb_eq hj255).trans (congrArg some (Memory.read_write_same ..))
  · exact if_congr Iff.rfl (congrArg some (Memory.read_write_other _ _ hn)) rfl

/-! ### The numbers of R160 -/

/-- Settles O41, by counting: neither the bits of the byte nor its values decide what kind an operation of the lists is,
but for `RX8`, which is a line event for every byte except the last. -/
theorem lineEventCounts : Obligations.LineEventCounts :=
  ⟨fun _ => ⟨rfl, rfl, rfl⟩, rfl, rfl, fun l => by cases l <;> exact ⟨rfl, rfl⟩⟩

end Machine
end Sys2Proof
end

section
/-! PROOFS. What a labelled step does to the wires: where it waits for the clock (R156), that nothing outside byte
reception looks at the clock (R150), and where it changes `SDA` (R146, R159). -/

namespace Sys2Proof
namespace Machine

variable {s t m : State} {l : Label} {b c : Bool} {x : Line} {d : Drive}

/-! ### Where the engine is held (R156) -/

/-- Only a wait is held, and only while its line is LOW (R126). -/
theorem run_held {o : MicroOp} (h : o.run s = .held) : ∃ x, o = .waitH x ∧ level s x = false := by
  cases o with
  | waitH x =>
    by_cases hd : driveOf s x = .released
    · rw [run_waitH_of_released hd] at h
      cases hv : level s x with
      | false => exact ⟨x, rfl, hv⟩
      | true => rw [hv] at h; cases h
    · rw [run_waitH_of_driven hd] at h
      cases h
  | sample x =>
    by_cases hd : driveOf s x = .released
    · rw [run_sample_of_released hd] at h
      cases h
    · rw [run_sample_of_driven hd] at h
      cases h
  | dl _ | rl _ | setSda _ | dly _ | book => cases h

/-- The two waits of the engine, both for `SCL` (R153, R154). -/
theorem wait_of_microOp (h : microOp l s = .waitH x) : (l = .rx2 ∨ l = .rx11) ∧ x = .scl := by
  cases l
  case rx2 | rx11 => exact ⟨by simp, (MicroOp.waitH.inj h).symm⟩
  case rx8 =>
    simp only [microOp] at h
    split at h <;> cases h
  all_goals cases h

/-- Settles O43: of the micro-operations only the two waits can be held, and a wait looks at the level of `SCL`, which
the master has released there. -/
theorem heldOnlyInReception : Obligations.HeldOnlyInReception := by
  refine ⟨fun s l _ h => ?_, fun s hi hl => ?_⟩
  · obtain ⟨x, ho, hv⟩ := run_held h
    obtain ⟨hl, rfl⟩ := wait_of_microOp ho
    exact ⟨hl, hv⟩
  · have hd : s.drvScl = .released := by
      rcases hl with hl | hl <;> exact hi.drvScl_at hl
    have hstep : engineStep s = .next (if level s .scl then advance s else s) := by
      rcases hl with hl | hl
      · rw [engineStep_of_label hl, runLabel_rx2 s hd]
      · rw [engineStep_of_label hl, runLabel_rx11 s hd]
    have hv : level s .scl = !s.extScl := level_of_released (x := .scl) hd
    rw [hstep, hv]
    exact ⟨fun he => by rw [if_neg (by simp [he])], fun he => by rw [if_pos (by simp [he])]; rfl⟩

/-! ### Nothing outside byte reception looks at the clock (R150) -/

/-- The state with another pull of `SCL` by the other participants. -/
def pullScl (b : Bool) (s : State) : State := { s with extScl := b }

/-- The outcome with its next state changed. -/
def mapNext (f : State → State) : Host.Outcome State Fault Refusal → Host.Outcome State Fault Refusal
  | .next t => .next (f t)
  | .fault r => .fault r
  | .refused r => .refused r

theorem loadByte_pullScl (b : Bool) (n : BitVec 6) (s : State) :
    loadByte n (pullScl b s) = mapNext (pullScl b) (loadByte n s) := by
  by_cases hn : n.toNat < 33
  · rw [loadByte_ok hn, loadByte_ok hn]
    rfl
  · have hf (v : State) : loadByte n v = .fault .tbIndex := by simp [loadByte, readTb, hn]
    rw [hf, hf]
    rfl

theorem nextBit_pullScl (b : Bool) (s : State) : nextBit (pullScl b s) = pullScl b (nextBit s) := by
  rw [nextBit_eq, nextBit_eq]
  rfl

theorem dispatchAfterAck_pullScl (b : Bool) (s : State) :
    dispatchAfterAck (pullScl b s) = mapNext (pullScl b) (dispatchAfterAck s) := by
  cases hm : s.mode with
  | w =>
    by_cases hk : s.k.toNat + 1 < s.len.toNat
    · rw [dispatchAfterAck_moreBytes (s := pullScl b s) hm hk, dispatchAfterAck_moreBytes hm hk]
      exact loadByte_pullScl b _ s
    · rw [dispatchAfterAck_lastByte (s := pullScl b s) hm hk, dispatchAfterAck_lastByte hm hk]
      rfl
  | r =>
    by_cases hn : s.nreq = 0
    · rw [dispatchAfterAck_readNone (s := pullScl b s) hm hn, dispatchAfterAck_readNone hm hn]
      rfl
    · rw [dispatchAfterAck_read (s := pullScl b s) hm hn, dispatchAfterAck_read hm hn]
      rfl

/-- The sample of an acknowledgment is of `SDA`, released or not. -/
theorem runLabel_tx9_pullScl (b : Bool) (s : State) :
    runLabel .tx9 (pullScl b s) = mapNext (pullScl b) (runLabel .tx9 s) := by
  by_cases hd : s.drvSda = .released
  · rw [runLabel_tx9 (pullScl b s) hd, runLabel_tx9 s hd]
    change Host.Outcome.next (takeAckSample (level s .sda) (pullScl b s)) =
      .next (pullScl b (takeAckSample (level s .sda) s))
    cases level s .sda <;> rfl
  · rw [runLabel_of_refused (s := s) (l := .tx9) rfl (run_sample_of_driven (x := .sda) hd),
      runLabel_of_refused (s := pullScl b s) (l := .tx9) rfl (run_sample_of_driven (x := .sda) hd)]
    rfl

/-- A labelled step outside byte reception is the same whatever the pull of `SCL` is, and keeps the pull. -/
theorem runLabel_pullScl (b : Bool) (s : State) (hl : l.home.1 ≠ .byteReceive) :
    runLabel l (pullScl b s) = mapNext (pullScl b) (runLabel l s) := by
  cases l
  case st4 => exact loadByte_pullScl b 0 s
  case tx5 => exact congrArg Host.Outcome.next (nextBit_pullScl b s)
  case tx9 => exact runLabel_tx9_pullScl b s
  case ak2 => exact dispatchAfterAck_pullScl b s
  case rx0 | rx1 | rx2 | rx3 | rx4 | rx5 | rx6 | rx7 | rx8 | rx9 | rx10 | rx11 | rx12 | rx13 | rx14 | rx15 | rx16
    | rx17 =>
    exact absurd rfl hl
  all_goals rfl

/-- Settles O44, label by label. -/
theorem transmissionIgnoresStretching : Obligations.TransmissionIgnoresStretching := by
  intro s b hp
  have hmap : engineStep (pullScl b s) = mapNext (pullScl b) (engineStep s) := by
    cases hl : labelAt s.ph s.u with
    | none => simp only [engineStep, pullScl, hl, mapNext]
    | some l =>
      rw [engineStep_of_label (s := pullScl b s) hl, engineStep_of_label hl]
      exact runLabel_pullScl b s (by rw [← (labelAt_iff.1 hl).1]; exact hp)
  refine hmap.trans ?_
  cases engineStep s <;> rfl

/-! ### Where `SDA` changes (R146) -/

/-- The labels with a line event on `SDA` have the clock driven low, but for `ST0`, which drives `SDA` low, and `SP4`,
which releases it (R146, R160). -/
theorem sdaEvent_cases (h : (microOp l s).lineEvent = some (.sda, d)) :
    (drivesAt l s).1 = .drivenLow ∨ (l = .st0 ∧ d = .drivenLow) ∨ (l = .sp4 ∧ d = .released) := by
  cases l
  case st0 => cases h; exact .inr (.inl ⟨rfl, rfl⟩)
  case sp4 => cases h; exact .inr (.inr ⟨rfl, rfl⟩)
  case tx0 | tx6 | rx8 | rx15 | sp0 => exact .inl rfl
  all_goals cases h

/-- The two samples of the engine are taken with the clock released (R145, R153, R160). -/
theorem drivesAt_of_sample (h : microOp l s = .sample x) : (drivesAt l s).1 = .released := by
  cases l
  case tx9 | rx3 => rfl
  case rx8 =>
    simp only [microOp] at h
    split at h <;> cases h
  all_goals cases h

/-- Settles O49: the drive mode of `SCL` is that of the label. -/
theorem sdaChangesOnlyUnderALowClock : Obligations.SdaChangesOnlyUnderALowClock := by
  refine ⟨fun s o d hi ho he => ?_, fun s x hi ho => ?_⟩
  · obtain ⟨l, hl, rfl⟩ := currentOp_cases ho
    have hd := hi.drvScl_at hl
    obtain ⟨hp, -⟩ := labelAt_iff.1 hl
    obtain hlow | ⟨rfl, -⟩ | ⟨rfl, -⟩ := sdaEvent_cases he
    · rw [hlow] at hd
      exact ⟨fun _ _ => hd, fun hr => by rw [hd] at hr; cases hr⟩
    · exact ⟨fun hst _ => absurd hp hst, fun _ => .inl hl⟩
    · exact ⟨fun _ hsp => absurd hp hsp, fun _ => .inr hl⟩
  · obtain ⟨l, hl, ho⟩ := currentOp_cases ho
    exact (hi.drvScl_at hl).trans (drivesAt_of_sample ho)

/-! ### The levels after a labelled step -/

/-- The end of a labelled step keeps the levels of both wires. -/
theorem conclude_levels (h : conclude l b m = .next t) : levels t = levels m := by
  obtain hf | rfl | rfl | ⟨-, rfl⟩ := conclude_frame h
  · rw [hf]; rfl
  all_goals rfl

/-- What a labelled step makes of the wires is what its line event makes of them. -/
theorem runLabel_levels (h : runLabel l s = .next t) : levels t = levels (applyEvent (microOp l s).lineEvent s) := by
  obtain ⟨m, b, hm, hc⟩ | ⟨hh, rfl⟩ := runLabel_cases h
  · rw [conclude_levels hc, run_done_eq hm]
  · obtain ⟨x, ho, -⟩ := run_held hh
    rw [ho]
    rfl

/-- With `SDA` unchanged there is neither condition. -/
theorem Levels.no_condition_of_sda {p q : Levels} (h : q.sda = p.sda) : p.isStart q = false ∧ p.isStop q = false := by
  cases hp : p.sda <;> simp [Levels.isStart, Levels.isStop, h, hp]

/-- With `SCL` LOW before there is neither condition. -/
theorem Levels.no_condition_of_scl {p q : Levels} (h : p.scl = false) : p.isStart q = false ∧ p.isStop q = false := by
  simp [Levels.isStart, Levels.isStop, h]

/-- No labelled step makes a start condition but `ST0`, nor a stop condition but `SP4`, whatever the other participants
hold: `SDA` changes under a LOW clock everywhere else (R146, R159). -/
theorem runLabel_conditions (hi : Inv s) (hl : labelAt s.ph s.u = some l) (h : runLabel l s = .next t) :
    (startCondition s t = true → l = .st0) ∧ (stopCondition s t = true → l = .sp4) := by
  have hnone (hn : startCondition s t = false ∧ stopCondition s t = false) :
      (startCondition s t = true → l = .st0) ∧ (stopCondition s t = true → l = .sp4) := by
    simp [hn]
  have hv := runLabel_levels h
  cases he : (microOp l s).lineEvent with
  | none =>
    rw [he] at hv
    exact hnone (Levels.no_condition_of_sda (by rw [hv]; rfl))
  | some e =>
    obtain ⟨x, d⟩ := e
    rw [he] at hv
    cases x with
    | scl => exact hnone (Levels.no_condition_of_sda (by rw [hv]; rfl))
    | sda =>
      obtain hlow | ⟨rfl, rfl⟩ | ⟨rfl, rfl⟩ := sdaEvent_cases he
      · exact hnone (Levels.no_condition_of_scl (level_of_drivenLow (x := .scl) ((hi.drvScl_at hl).trans hlow)))
      · refine ⟨fun _ => rfl, fun hc => ?_⟩
        have hlow : (levels t).sda = false := by rw [hv]; rfl
        simp [stopCondition, Levels.isStop, hlow] at hc
      · refine ⟨fun hc => ?_, fun _ => rfl⟩
        have hlow : (levels s).sda = false := level_of_drivenLow (x := .sda) (hi.drvSda_at hl rfl)
        simp [startCondition, Levels.isStart, hlow] at hc

/-- `ST0` with nobody holding a line takes the wires from both HIGH to `SDA` LOW (R142, R143). -/
theorem engineStep_st0_levels (hi : Inv s) (hl : labelAt s.ph s.u = some .st0) (hc : s.extScl = false)
    (hd : s.extSda = false) :
    ∃ t, engineStep s = .next t ∧ levels s = ⟨true, true⟩ ∧ levels t = ⟨true, false⟩ := by
  have hscl : s.drvScl = .released := hi.drvScl_at hl
  have hsda : s.drvSda = .released := hi.drvSda_at hl rfl
  refine ⟨_, engineStep_of_label hl, ?_, ?_⟩
  · simp [levels, level, hscl, hsda, hc, hd]
  · simp [levels, level, hscl, hc, driveLow]

/-- `SP4` with nobody holding a line takes the wires from `SDA` LOW to both HIGH (R157). -/
theorem engineStep_sp4_levels (hi : Inv s) (hl : labelAt s.ph s.u = some .sp4) (hc : s.extScl = false)
    (hd : s.extSda = false) :
    ∃ t, engineStep s = .next t ∧ levels s = ⟨true, false⟩ ∧ levels t = ⟨true, true⟩ := by
  have hscl : s.drvScl = .released := hi.drvScl_at hl
  have hsda : s.drvSda = .drivenLow := hi.drvSda_at hl rfl
  refine ⟨_, engineStep_of_label hl, ?_, ?_⟩
  · simp [levels, level, hscl, hsda, hc]
  · simp [levels, level, hscl, hc, hd, release]

end Machine
end Sys2Proof
end

section
/-! PROOFS. What the observer of R159 counts. The rises of the clock in a transaction are a function of the position; on
a polite bus every step makes exactly the rises that this function says, so that the observer is always at the bit that
the engine is at. -/

namespace Sys2Proof
namespace Machine

variable {s t u g m : State} {l l' : Label} {o : Observer} {p q : Levels} {c N : Nat} {acks : List Bool}
  {bs : List (Byte × Bool)}

/-! ### One look of the observer -/

/-- The byte transfers that the observer has reported. -/
def transfers (bs : List (Byte × Bool)) : List Seen := bs.map fun b => .byteTransfer b.1 b.2

/-- The observer has seen a start condition, then the byte transfers `bs`, and `c` rises of the clock in all. -/
structure Reports (o : Observer) (bs : List (Byte × Bool)) (c : Nat) : Prop where
  seen : o.seen = .start :: transfers bs
  rises : 9 * bs.length + o.bits.length = c
  bits : o.bits.length ≤ 8

theorem Observer.look_last (o : Observer) (q : Levels) : (o.look q).last = q := by
  unfold Observer.look Observer.takeBit
  split_ifs <;> rfl

/-- A look that sees neither condition counts a rise if there is one; the ninth rise of a byte completes a transfer,
with the level of `SDA` as its acknowledgment. -/
theorem Reports.look (h : Reports o bs c) (hc : o.last.isStart q = false ∧ o.last.isStop q = false) :
    ∃ v, Reports (o.look q) (bs ++ if o.last.isRise q = true ∧ c % 9 = 8 then [(v, q.sda)] else [])
      (c + (o.last.isRise q).toNat) := by
  obtain ⟨hseen, hrises, hbits⟩ := h
  refine ⟨byteOfBits o.bits, ?_⟩
  cases hr : o.last.isRise q with
  | false =>
    have hlook : (o.look q).seen = o.seen ∧ (o.look q).bits = o.bits := by
      simp only [Observer.look, hc, hr, Bool.false_eq_true, if_false]
      split <;> exact ⟨rfl, rfl⟩
    rw [if_neg (by simp), List.append_nil]
    exact ⟨hlook.1 ▸ hseen, hlook.2 ▸ hrises, hlook.2 ▸ hbits⟩
  | true =>
    obtain ⟨hp, hq⟩ : o.last.scl = false ∧ q.scl = true := by simpa [Levels.isRise] using hr
    rw [Observer.look_rise hp hq]
    by_cases h8 : o.bits.length = 8
    · rw [Observer.takeBit_ninth (o := { o with last := q, inPulse := true }) q.sda h8, if_pos ⟨rfl, by omega⟩]
      exact ⟨by simp [hseen, transfers], by simp; omega, by simp⟩
    · rw [Observer.takeBit_more (o := { o with last := q, inPulse := true }) q.sda h8, if_neg (by omega),
        List.append_nil]
      exact ⟨hseen, by simp; omega, by simp; omega⟩

/-! ### The rises of the clock, by position -/

/-- The number of bytes that a transaction transmits and receives if it reaches STOP (R148, R149, R155). -/
def byteCount (b : Block) : Nat := if b.mode = .r then 1 + b.nreq.toNat else b.len.toNat

/-- The rises of the clock from the start condition to a labelled step: nine for each byte before the one under way, and
of that byte one for each bit whose pulse has begun. -/
def risesBefore (l : Label) (b : Block) : Nat :=
  match l with
  | .st0 | .st1 | .st2 | .st3 | .st4 => 0
  | .tx0 | .tx1 | .tx2 => 9 * b.k.toNat + (7 - b.i.toNat)
  | .tx3 | .tx4 | .tx5 => 9 * b.k.toNat + (8 - b.i.toNat)
  | .tx6 | .tx7 => 9 * b.k.toNat + 8
  | .tx8 | .tx9 | .ak0 | .ak1 | .ak2 | .af0 => 9 * (b.k.toNat + 1)
  | .rx0 | .rx1 | .rx2 => 9 * (b.j.toNat + 1) + (7 - b.i.toNat)
  | .rx3 | .rx4 | .rx5 => 9 * (b.j.toNat + 1) + (8 - b.i.toNat)
  | .rx6 | .rx7 | .rx8 | .rx9 | .rx10 | .rx11 => 9 * (b.j.toNat + 1) + 8
  | .rx12 | .rx13 | .rx14 | .rx15 | .rx16 | .rx17 => 9 * (b.j.toNat + 2)
  | .sp0 | .sp1 | .sp2 => 9 * byteCount b
  | .sp3 | .sp4 | .sp5 | .sp6 => 9 * byteCount b + 1

/-- At the two waits the pulse of the bit has begun when `SCL` is HIGH. -/
def waitRise (l : Label) (s : State) : Nat :=
  match l with
  | .rx2 | .rx11 => (level s .scl).toNat
  | _ => 0

/-- All rises of the clock from the start condition to the state `s` at a labelled step. -/
def risesAt (l : Label) (s : State) : Nat := risesBefore l s.toBlock + waitRise l s

/-- The number of acknowledgments sampled before a labelled step. -/
def acksAt (l : Label) (b : Block) : Nat :=
  match l.home.1 with
  | .idle | .start => 0
  | .byteTransfer => b.k.toNat
  | .ackOk | .ackFail => b.k.toNat + 1
  | .byteReceive | .stop => if b.mode = .r then 1 else b.len.toNat

/-- The acknowledgment that is on the wire and not sampled yet. -/
def pendingAck (l : Label) (s : State) : List Bool :=
  match l with
  | .tx8 | .tx9 => [level s .sda]
  | _ => []

/-- The acknowledgment that a labelled step samples. -/
def sampledAck (l : Label) (s : State) : List Bool := if l = .tx9 then [level s .sda] else []

/-- One move of the wires, by `BUS` or by a labelled step, seen with the counts before and after it: it makes neither
condition, and the rises, the acknowledgments sampled and the one pending go on as they should. -/
structure Moves (l : Label) (s : State) (l' : Label) (t : State) (sampled : List Bool) : Prop where
  quiet : startCondition s t = false ∧ stopCondition s t = false
  rises : risesAt l' t = risesAt l s + ((levels s).isRise (levels t)).toNat
  count : acksAt l' t.toBlock = acksAt l s.toBlock + sampled.length
  pending : sampled ++ pendingAck l' t = pendingAck l s ∨
    (l = .tx7 ∧ (levels s).isRise (levels t) = true ∧ sampled ++ pendingAck l' t = [level t .sda])
  total : byteCount t.toBlock = byteCount s.toBlock

/-- The observer's reports agree with the counts at a labelled step of a transaction of `N` bytes. -/
structure Agrees (N : Nat) (l : Label) (s : State) (o : Observer) (acks : List Bool) (bs : List (Byte × Bool)) :
    Prop where
  last : o.last = levels s
  reports : Reports o bs (risesAt l s)
  shown : acks ++ pendingAck l s <+: bs.map Prod.snd
  count : acks.length = acksAt l s.toBlock
  total : byteCount s.toBlock = N

/-- A move of the wires keeps the agreement. -/
theorem Agrees.move {sampled : List Bool} (h : Agrees N l s o acks bs) (hm : Moves l s l' t sampled) :
    ∃ bs', Agrees N l' t (o.look (levels t)) (acks ++ sampled) bs' := by
  obtain ⟨v, hr⟩ := h.reports.look (q := levels t) (by rw [h.last]; exact hm.quiet)
  rw [h.last, ← hm.rises] at hr
  refine ⟨_, o.look_last _, hr, ?_, by rw [List.length_append, h.count, hm.count], hm.total.trans h.total⟩
  rw [List.append_assoc, List.map_append]
  obtain hp | ⟨rfl, hrise, hp⟩ := hm.pending
  · rw [hp]
    exact h.shown.trans (List.prefix_append _ _)
  · have hrises : 9 * bs.length + o.bits.length = 9 * s.k.toNat + 8 := h.reports.rises
    have hk : acks.length = s.k.toNat := h.count
    have hbits := h.reports.bits
    have hshown : acks <+: bs.map Prod.snd := by simpa [pendingAck] using h.shown
    have hall : acks = bs.map Prod.snd := hshown.eq_of_length (by rw [List.length_map]; omega)
    have hninth : risesAt .tx7 s % 9 = 8 := by rw [← h.reports.rises]; omega
    rw [hp, hall, if_pos ⟨hrise, hninth⟩]
    exact List.prefix_rfl

/-! ### The moves of `BUS` -/

/-- What a polite bus keeps to at any moment (R159). -/
theorem politeAt_iff : politeAt s = true ↔
    (s.drvScl = .drivenLow ∨ waiting s = true ∨ s.extScl = false) ∧
      (labelAt s.ph s.u = some .st0 ∨ labelAt s.ph s.u = some .sp4 → s.extSda = false) := by
  grind [politeAt]

theorem politeMove_iff : politeMove s t = true ↔
    (s.extSda = t.extSda ∨ (level s .scl = false ∧ level t .scl = false)) ∧
      (s.drvScl = .drivenLow ∨ t.extScl = false ∨ s.extScl = true) := by
  simp [politeMove, or_assoc]

/-- A step of a polite bus changes nothing on the wires, or changes `SDA` under a LOW clock, or lets the clock go at one
of the two waits. -/
theorem politeMove_cases (hb : g.toBlock = s.toBlock) (hs : politeAt s = true) (hm : politeMove s g = true) :
    levels g = levels s ∨ (level s .scl = false ∧ level g .scl = false ∧ s.drvScl = .drivenLow) ∨
      (level s .scl = false ∧ waiting s = true) := by
  obtain ⟨hfree, -⟩ := politeAt_iff.1 hs
  obtain ⟨hsda, hscl⟩ := politeMove_iff.1 hm
  have hdrv : g.drvScl = s.drvScl := congrArg Block.drvScl hb
  have hdrv' : g.drvSda = s.drvSda := congrArg Block.drvSda hb
  cases hd : s.drvScl with
  | drivenLow =>
    exact .inr (.inl ⟨level_of_drivenLow (x := .scl) hd, level_of_drivenLow (x := .scl) (hdrv.trans hd), rfl⟩)
  | released =>
    have hls : level s .scl = !s.extScl := level_of_released (x := .scl) hd
    have hlg : level g .scl = !g.extScl := level_of_released (x := .scl) (hdrv.trans hd)
    cases he : s.extScl with
    | true => exact .inr (.inr ⟨by rw [hls, he]; rfl, by simpa [hd, he] using hfree⟩)
    | false =>
      have heg : g.extScl = false := by simpa [hd, he] using hscl
      have hsame : s.extSda = g.extSda := by simpa [hls, hlg, he, heg] using hsda
      have hlevel (x : Line) : level g x = level s x := by
        cases x with
        | scl => rw [hlg, hls, he, heg]
        | sda =>
          have hd : driveOf g .sda = driveOf s .sda := hdrv'
          have he : extOf g .sda = extOf s .sda := hsame.symm
          simp only [level, hd, he]
      exact .inl (by rw [levels, hlevel, hlevel]; rfl)

theorem Levels.isRise_of_scl {p q : Levels} (h : q.scl = p.scl) : p.isRise q = false := by
  simp [Levels.isRise, h]

theorem waitRise_congr (l : Label) (h : level t .scl = level s .scl) : waitRise l t = waitRise l s := by
  simp only [waitRise, h]

/-- The acknowledgment is pending only while the clock is released (R145, R160). -/
theorem pendingAck_of_drivenLow (t : State) (h : (drivesAt l s).1 = .drivenLow) : pendingAck l t = [] := by
  cases l
  case tx8 | tx9 => cases h
  all_goals rfl

/-- A step of a polite bus is a move of the wires at the label where the engine is. -/
theorem Moves.of_bus (hi : Inv s) (hl : labelAt s.ph s.u = some l) (hb : g.toBlock = s.toBlock)
    (hs : politeAt s = true) (hm : politeMove s g = true) : Moves l s l g [] := by
  have hcount : acksAt l g.toBlock = acksAt l s.toBlock := by rw [hb]
  have htotal : byteCount g.toBlock = byteCount s.toBlock := by rw [hb]
  have hquiet (hr : (levels s).isRise (levels g) = false) (hw : level g .scl = level s .scl) :
      risesAt l g = risesAt l s + ((levels s).isRise (levels g)).toNat := by
    rw [hr, risesAt, hb, waitRise_congr l hw]; rfl
  obtain hsame | ⟨hls, hlg, hd⟩ | ⟨hls, hw⟩ := politeMove_cases hb hs hm
  · have hscl : level g .scl = level s .scl := congrArg Levels.scl hsame
    have hsda : level g .sda = level s .sda := congrArg Levels.sda hsame
    exact ⟨Levels.no_condition_of_sda hsda, hquiet (Levels.isRise_of_scl hscl) hscl, hcount,
      .inl (by simp only [List.nil_append, pendingAck, hsda]), htotal⟩
  · have hscl : level g .scl = level s .scl := hlg.trans hls.symm
    have hlow : (drivesAt l s).1 = .drivenLow := (hi.drvScl_at hl).symm.trans hd
    exact ⟨Levels.no_condition_of_scl hls, hquiet (Levels.isRise_of_scl hscl) hscl, hcount,
      .inl (by rw [pendingAck_of_drivenLow g hlow, pendingAck_of_drivenLow s hlow]; rfl), htotal⟩
  · have hrise : (levels s).isRise (levels g) = level g .scl := by simp [Levels.isRise, levels, hls]
    have hwait : l = .rx2 ∨ l = .rx11 := by simpa [waiting, hl] using hw
    refine ⟨Levels.no_condition_of_scl hls, ?_, hcount, ?_, htotal⟩
    · rw [hrise, risesAt, risesAt, hb]
      rcases hwait with rfl | rfl <;> simp [waitRise, hls]
    · rcases hwait with rfl | rfl <;> exact .inl rfl

/-! ### The moves of the engine -/

/-- The labels between the start condition and the stop condition, with both outside. -/
def Label.between (l : Label) : Bool := l ≠ .st0 && l ≠ .sp5 && l ≠ .sp6

theorem labelAt_advance (hl : labelAt s.ph s.u = some l) (hn : labelAt l.home.1 (l.home.2 + 1) = some l') :
    labelAt (advance s).ph (advance s).u = some l' := by
  obtain ⟨hp, hu⟩ := labelAt_iff.1 hl
  rw [advance_ph, advance_u, hp, hu, hn]

/-- The clock rises at a labelled step only where the step releases it. -/
theorem no_rise_of_lineEvent (h : runLabel l s = .next t) (he : (microOp l s).lineEvent ≠ some (.scl, .released)) :
    (levels s).isRise (levels t) = false := by
  have hv := runLabel_levels h
  rcases hev : (microOp l s).lineEvent with _ | ⟨_ | _, _ | _⟩ <;> rw [hev] at hv he
  case some.scl.released => exact absurd rfl he
  case some.scl.drivenLow => simp [Levels.isRise, show (levels t).scl = false by rw [hv]; rfl]
  all_goals exact Levels.isRise_of_scl (by rw [hv]; rfl)

/-- A labelled step that does not release the clock, and after which the counts are what they were, is a move of the
wires. -/
theorem Moves.of_quiet (hi : Inv s) (hl : labelAt s.ph s.u = some l) (h : runLabel l s = .next t) (h0 : l ≠ .st0)
    (h4 : l ≠ .sp4) (he : (microOp l s).lineEvent ≠ some (.scl, .released)) (hr : risesAt l' t = risesAt l s)
    (hc : acksAt l' t.toBlock = acksAt l s.toBlock + (sampledAck l s).length)
    (hp : sampledAck l s ++ pendingAck l' t = pendingAck l s) (hn : byteCount t.toBlock = byteCount s.toBlock) :
    Moves l s l' t (sampledAck l s) := by
  have hcond := runLabel_conditions hi hl h
  refine ⟨by simpa [h0, h4] using hcond, ?_, hc, .inl hp, hn⟩
  rw [no_rise_of_lineEvent h he, hr]
  rfl

/-- The release of a clock driven low is a rise unless another participant holds the clock. -/
theorem isRise_release (hd : s.drvScl = .drivenLow) :
    (levels s).isRise (levels (advance (release .scl s))) = !s.extScl := by
  simp [Levels.isRise, levels, level, release, hd]

/-- The release of the clock before a bit of a transmission and before STOP: a polite bus lets it rise at once. -/
theorem Moves.of_release (hi : Inv s) (hl : labelAt s.ph s.u = some l) (hr : l = .tx2 ∨ l = .tx7 ∨ l = .sp2)
    (hn : labelAt l.home.1 (l.home.2 + 1) = some l') (ht : politeAt (advance (release .scl s)) = true) :
    Moves l s l' (advance (release .scl s)) (sampledAck l s) := by
  have hlow : s.drvScl = .drivenLow := by
    rcases hr with rfl | rfl | rfl <;> exact hi.drvScl_at hl
  have hwaiting : waiting (advance (release .scl s)) = false := by
    rw [waiting, labelAt_advance (s := release .scl s) hl hn]
    rcases hr with rfl | rfl | rfl <;> cases hn <;> rfl
  have hfree : s.extScl = false := by
    obtain ⟨hfree | hfree | hfree, -⟩ := politeAt_iff.1 ht
    · cases hfree
    · rw [hwaiting] at hfree; cases hfree
    · exact hfree
  have hrise := isRise_release hlow
  rw [hfree] at hrise
  have hbit : s.i.toNat < 8 := s.i.isLt
  have hquiet := Levels.no_condition_of_scl (p := levels s) (q := levels (advance (release .scl s)))
    (level_of_drivenLow (x := .scl) hlow)
  rcases hr with rfl | rfl | rfl <;> cases hn
  · refine ⟨hquiet, ?_, rfl, .inl rfl, rfl⟩
    rw [hrise]
    change 9 * s.k.toNat + (8 - s.i.toNat) = 9 * s.k.toNat + (7 - s.i.toNat) + 1
    omega
  · exact ⟨hquiet, by rw [hrise]; rfl, rfl, .inr ⟨rfl, hrise, rfl⟩, rfl⟩
  · exact ⟨hquiet, by rw [hrise]; rfl, rfl, .inl rfl, rfl⟩

/-- The release of the clock before a bit of a reception: the clock may be held, and the wait at the next label counts
its rise. -/
theorem Moves.of_release_wait (hi : Inv s) (hl : labelAt s.ph s.u = some l) (hr : l = .rx1 ∨ l = .rx10)
    (hn : labelAt l.home.1 (l.home.2 + 1) = some l') : Moves l s l' (advance (release .scl s)) (sampledAck l s) := by
  have hlow : s.drvScl = .drivenLow := by
    rcases hr with rfl | rfl <;> exact hi.drvScl_at hl
  have hrise := isRise_release hlow
  have hquiet := Levels.no_condition_of_scl (p := levels s) (q := levels (advance (release .scl s)))
    (level_of_drivenLow (x := .scl) hlow)
  rcases hr with rfl | rfl <;> cases hn
  · exact ⟨hquiet, by rw [hrise]; rfl, rfl, .inl rfl, rfl⟩
  · exact ⟨hquiet, by rw [hrise]; rfl, rfl, .inl rfl, rfl⟩

/-- After the labelled step `l` of `s` the engine is in `t` at a label between the conditions, and the step was a move
of the wires. -/
def MovesOn (l : Label) (s t : State) : Prop :=
  ∃ l', labelAt t.ph t.u = some l' ∧ l'.between = true ∧ Moves l s l' t (sampledAck l s)

/-- The end of a transmitted bit: one rise for each bit (R144). -/
theorem movesOn_tx5 (hi : Inv s) (hl : labelAt s.ph s.u = some .tx5) (h : runLabel .tx5 s = .next t) :
    MovesOn .tx5 s t := by
  have hp : s.ph = .byteTransfer := (labelAt_iff.1 hl).1
  obtain rfl : nextBit (delayStep .txLow s) = t := Host.Outcome.next.inj h
  by_cases h0 : s.i = 0
  · rw [nextBit_last (s := delayStep .txLow s) h0] at h ⊢
    refine ⟨.tx6, labelAt_iff.2 ⟨hp, rfl⟩, rfl, .of_quiet hi hl h nofun nofun nofun ?_ rfl rfl rfl⟩
    change 9 * s.k.toNat + 8 = 9 * s.k.toNat + (8 - s.i.toNat)
    rw [h0]; rfl
  · rw [nextBit_more (s := delayStep .txLow s) h0] at h ⊢
    refine ⟨.tx0, labelAt_iff.2 ⟨hp, rfl⟩, rfl, .of_quiet hi hl h nofun nofun nofun ?_ rfl rfl rfl⟩
    change 9 * s.k.toNat + (7 - (s.i - 1).toNat) = 9 * s.k.toNat + (8 - s.i.toNat)
    bv_omega

/-- The end of a received bit: one rise for each bit (R153). -/
theorem movesOn_rx5 (hi : Inv s) (hl : labelAt s.ph s.u = some .rx5) (h : runLabel .rx5 s = .next t) :
    MovesOn .rx5 s t := by
  have hp : s.ph = .byteReceive := (labelAt_iff.1 hl).1
  obtain rfl : nextBit (driveLow .scl s) = t := Host.Outcome.next.inj h
  by_cases h0 : s.i = 0
  · rw [nextBit_last (s := driveLow .scl s) h0] at h ⊢
    refine ⟨.rx6, labelAt_iff.2 ⟨hp, rfl⟩, rfl, .of_quiet hi hl h nofun nofun nofun ?_ rfl rfl rfl⟩
    change 9 * (s.j.toNat + 1) + 8 = 9 * (s.j.toNat + 1) + (8 - s.i.toNat)
    rw [h0]; rfl
  · rw [nextBit_more (s := driveLow .scl s) h0] at h ⊢
    refine ⟨.rx0, labelAt_iff.2 ⟨hp, rfl⟩, rfl, .of_quiet hi hl h nofun nofun nofun ?_ rfl rfl rfl⟩
    change 9 * (s.j.toNat + 1) + (7 - (s.i - 1).toNat) = 9 * (s.j.toNat + 1) + (8 - s.i.toNat)
    bv_omega

/-- The sample of an acknowledgment takes the one that is pending (R145). -/
theorem movesOn_tx9 (hi : Inv s) (hl : labelAt s.ph s.u = some .tx9) (h : runLabel .tx9 s = .next t) :
    MovesOn .tx9 s t := by
  have hd : s.drvSda = .released := hi.drvSda_at hl rfl
  obtain rfl : takeAckSample (level s .sda) s = t := Host.Outcome.next.inj ((runLabel_tx9 s hd).symm.trans h)
  cases hv : level s .sda with
  | false =>
    rw [hv] at h
    exact ⟨.ak0, rfl, rfl, .of_quiet hi hl h nofun nofun nofun rfl rfl rfl rfl⟩
  | true =>
    rw [hv] at h
    exact ⟨.af0, rfl, rfl, .of_quiet hi hl h nofun nofun nofun rfl rfl rfl rfl⟩

/-- The dispatch after an acknowledged byte: the next byte begins, or all bytes are done (R148, R149). -/
theorem movesOn_ak2 (hi : Inv s) (hl : labelAt s.ph s.u = some .ak2) (h : runLabel .ak2 s = .next t) :
    MovesOn .ak2 s t := by
  have hp : s.ph = .ackOk := (labelAt_iff.1 hl).1
  have htr : transmitting s.ph = true := by rw [hp]; rfl
  have hk := hi.kBound htr
  have hdisp : dispatchAfterAck s = .next t := h
  cases hm : s.mode with
  | w =>
    by_cases hmore : s.k.toNat + 1 < s.len.toNat
    · rw [dispatchAfterAck_moreBytes hm hmore] at hdisp
      obtain rfl := loadByte_next hdisp
      refine ⟨.tx0, rfl, rfl, .of_quiet hi hl h nofun nofun nofun ?_ ?_ rfl rfl⟩
      · change 9 * (s.k + 1).toNat = 9 * (s.k.toNat + 1)
        bv_omega
      · change (s.k + 1).toNat = s.k.toNat + 1
        bv_omega
    · rw [dispatchAfterAck_lastByte hm hmore] at hdisp
      cases hdisp
      have hlast : s.len.toNat = s.k.toNat + 1 := by bv_omega
      refine ⟨.sp0, rfl, rfl, .of_quiet hi hl h nofun nofun nofun ?_ ?_ rfl rfl⟩
      · change 9 * byteCount s.toBlock = 9 * (s.k.toNat + 1)
        simp [byteCount, hm, hlast]
      · change (if s.mode = .r then 1 else s.len.toNat) = s.k.toNat + 1
        simp [hm, hlast]
  | r =>
    have hk0 : s.k = 0 := hi.kRead htr hm
    by_cases hn : s.nreq = 0
    · rw [dispatchAfterAck_readNone hm hn] at hdisp
      cases hdisp
      refine ⟨.sp0, rfl, rfl, .of_quiet hi hl h nofun nofun nofun ?_ ?_ rfl rfl⟩
      · change 9 * byteCount s.toBlock = 9 * (s.k.toNat + 1)
        simp [byteCount, hm, hn, hk0]
      · change (if s.mode = .r then 1 else s.len.toNat) = s.k.toNat + 1
        simp [hm, hk0]
    · rw [dispatchAfterAck_read hm hn] at hdisp
      cases hdisp
      refine ⟨.rx0, rfl, rfl, .of_quiet hi hl h nofun nofun nofun ?_ ?_ rfl rfl⟩
      · change 9 = 9 * (s.k.toNat + 1)
        simp [hk0]
      · change (if s.mode = .r then 1 else s.len.toNat) = s.k.toNat + 1
        simp [hm, hk0]

/-- A wait with the clock HIGH goes on, with its rise counted; with the clock LOW it stays (R126). -/
theorem movesOn_wait (hi : Inv s) (hl : labelAt s.ph s.u = some l) (hw : l = .rx2 ∨ l = .rx11)
    (h : runLabel l s = .next t) : MovesOn l s t := by
  have hd : s.drvScl = .released := by
    rcases hw with rfl | rfl <;> exact hi.drvScl_at hl
  have hrun : runLabel l s = .next (if level s .scl then advance s else s) := by
    rcases hw with rfl | rfl
    · exact runLabel_rx2 s hd
    · exact runLabel_rx11 s hd
  obtain rfl := Host.Outcome.next.inj (hrun.symm.trans h)
  have hbit : s.i.toNat < 8 := s.i.isLt
  cases hv : level s .scl with
  | false =>
    rw [hv] at h
    rcases hw with rfl | rfl
    · exact ⟨.rx2, hl, rfl, .of_quiet hi hl h nofun nofun nofun rfl rfl rfl rfl⟩
    · exact ⟨.rx11, hl, rfl, .of_quiet hi hl h nofun nofun nofun rfl rfl rfl rfl⟩
  | true =>
    rw [hv] at h
    rcases hw with rfl | rfl
    · refine ⟨.rx3, labelAt_advance hl rfl, rfl, .of_quiet hi hl h nofun nofun nofun ?_ rfl rfl rfl⟩
      simp only [risesAt, risesBefore, waitRise, hv, if_true]
      change 9 * (s.j.toNat + 1) + (8 - s.i.toNat) = 9 * (s.j.toNat + 1) + (7 - s.i.toNat) + 1
      omega
    · refine ⟨.rx12, labelAt_advance hl rfl, rfl, .of_quiet hi hl h nofun nofun nofun ?_ rfl rfl rfl⟩
      simp only [risesAt, risesBefore, waitRise, hv, if_true]
      rfl

/-- `RX8` is a line event on `SDA` or none (R154). -/
theorem movesOn_rx8 (hi : Inv s) (hl : labelAt s.ph s.u = some .rx8) (h : runLabel .rx8 s = .next t) :
    MovesOn .rx8 s t := by
  obtain rfl := Host.Outcome.next.inj ((runLabel_rx8 s).symm.trans h)
  have he : (microOp .rx8 s).lineEvent ≠ some (.scl, .released) := by
    unfold microOp
    dsimp only
    split <;> nofun
  by_cases hb : lastByte s = true
  · rw [if_pos hb] at h ⊢
    exact ⟨.rx9, labelAt_advance hl rfl, rfl, .of_quiet hi hl h nofun nofun he rfl rfl rfl rfl⟩
  · rw [if_neg hb] at h ⊢
    exact ⟨.rx9, labelAt_advance (s := driveLow .sda s) hl rfl, rfl,
      .of_quiet hi hl h nofun nofun he rfl rfl rfl rfl⟩

/-- The end of a received byte: the next one begins, or all bytes are done (R155). -/
theorem movesOn_rx17 (hi : Inv s) (hl : labelAt s.ph s.u = some .rx17) (h : runLabel .rx17 s = .next t) :
    MovesOn .rx17 s t := by
  have hp : s.ph = .byteReceive := (labelAt_iff.1 hl).1
  obtain ⟨hm, hj⟩ := hi.jBound hp
  obtain rfl : nextReceived s = t := Host.Outcome.next.inj h
  by_cases hmore : s.j + 1 < s.nreq
  · rw [nextReceived_enter hp hmore] at h ⊢
    refine ⟨.rx0, rfl, rfl, .of_quiet hi hl h nofun nofun nofun ?_ rfl rfl rfl⟩
    change 9 * ((s.j + 1).toNat + 1) = 9 * (s.j.toNat + 2)
    bv_omega
  · rw [nextReceived_last hmore] at h ⊢
    have hlast : s.nreq.toNat = s.j.toNat + 1 := by bv_omega
    refine ⟨.sp0, rfl, rfl, .of_quiet hi hl h nofun nofun nofun ?_ rfl rfl rfl⟩
    change 9 * byteCount s.toBlock = 9 * (s.j.toNat + 2)
    rw [byteCount, if_pos hm, hlast]
    omega

/-- The engine's steps between the conditions are moves of the wires (R142 to R157). -/
theorem movesOn (hi : Inv s) (hl : labelAt s.ph s.u = some l) (h : runLabel l s = .next t)
    (hb : l.between = true) (h4 : l ≠ .sp4) (hf : l ≠ .af0) (ht : t.ph ≠ .idle → politeAt t = true) :
    MovesOn l s t := by
  have hp : s.ph = l.home.1 := (labelAt_iff.1 hl).1
  cases l
  case st0 | sp5 | sp6 => cases hb
  case sp4 => exact absurd rfl h4
  case af0 => exact absurd rfl hf
  case st4 =>
    obtain rfl := loadByte_next ((runLabel_st4 s).symm.trans h)
    exact ⟨.tx0, rfl, rfl, .of_quiet hi hl h nofun nofun nofun rfl rfl rfl rfl⟩
  case tx5 => exact movesOn_tx5 hi hl h
  case tx9 => exact movesOn_tx9 hi hl h
  case ak2 => exact movesOn_ak2 hi hl h
  case rx3 =>
    obtain rfl := Host.Outcome.next.inj ((runLabel_rx3 s (hi.drvSda_at hl rfl)).symm.trans h)
    exact ⟨.rx4, labelAt_advance hl rfl, rfl, .of_quiet hi hl h nofun nofun nofun rfl rfl rfl rfl⟩
  case rx5 => exact movesOn_rx5 hi hl h
  case rx6 =>
    obtain ⟨-, rfl⟩ := storeReceived_next ((runLabel_rx6 s).symm.trans h)
    exact ⟨.rx7, labelAt_advance hl rfl, rfl, .of_quiet hi hl h nofun nofun nofun rfl rfl rfl rfl⟩
  case rx8 => exact movesOn_rx8 hi hl h
  case rx17 => exact movesOn_rx17 hi hl h
  case rx2 | rx11 => exact movesOn_wait hi hl (by simp) h
  case rx1 | rx10 =>
    cases h
    exact ⟨_, labelAt_advance hl rfl, rfl, .of_release_wait hi hl (by simp) rfl⟩
  case tx2 | tx7 | sp2 =>
    cases h
    refine ⟨_, labelAt_advance hl rfl, rfl, .of_release hi hl (by simp) rfl (ht ?_)⟩
    rw [advance_ph]
    exact hp.trans_ne nofun
  -- The other labels only go on, and do not release the clock.
  all_goals
    have hrun := h
    cases h
    exact ⟨_, labelAt_advance hl rfl, rfl, .of_quiet hi hl hrun nofun nofun nofun rfl rfl rfl rfl⟩

end Machine
end Sys2Proof
end

section
/-! PROOFS. The observer of R159 along a transaction: it has seen nothing, then agrees with the engine's counts, then
has seen the stop condition, and this is kept by every step of the machine on a polite bus. -/

namespace Sys2Proof
namespace Machine

variable {s t u g : State} {l : Label} {o : Observer} {n N : Nat} {acks : List Bool} {bs : List (Byte × Bool)}

/-- What the observer has reported of a transaction of `N` bytes that is over on the wire: all of them and the stop
condition if STOP was reached, and else one byte for each acknowledgment sampled. -/
def Finished (N : Nat) (ok : Bool) (o : Observer) (acks : List Bool) : Prop :=
  ∃ bs, o.seen = .start :: transfers bs ++ (if ok then [.stop] else []) ∧
    bs.length = (if ok then N else acks.length) ∧ acks <+: bs.map Prod.snd

/-- What the observer has seen of a transaction, by where the engine is. -/
inductive Watched (N : Nat) (s : State) (o : Observer) (acks : List Bool) : Prop
  | ready (hl : labelAt s.ph s.u = some .st0) (hlast : o.last = levels s) (hseen : o.seen = []) (hbits : o.bits = [])
      (hacks : acks = []) (htotal : byteCount s.toBlock = N)
  | running {l : Label} {bs : List (Byte × Bool)} (hl : labelAt s.ph s.u = some l) (hb : l.between = true)
      (h : Agrees N l s o acks bs)
  | stopped {l : Label} (hl : labelAt s.ph s.u = some l) (hs : l = .sp5 ∨ l = .sp6) (hlast : o.last = levels s)
      (h : Finished N true o acks)
  | ended (hp : s.ph = .idle) (h : Finished N s.lastok o acks)

/-- With the clock released outside the two waits, a polite bus leaves it HIGH (R159). -/
theorem extScl_of_polite (hi : Inv s) (hl : labelAt s.ph s.u = some l) (hr : (drivesAt l s).1 = .released)
    (hw : l ≠ .rx2 ∧ l ≠ .rx11) (hs : politeAt s = true) : s.extScl = false := by
  have hd := (hi.drvScl_at hl).trans hr
  have hwaiting : waiting s = false := by simp [waiting, hl, hw]
  simpa [hd, hwaiting] using (politeAt_iff.1 hs).1

/-- There, a step of a polite bus changes nothing on the wires. -/
theorem levels_of_polite (hi : Inv s) (hl : labelAt s.ph s.u = some l) (hr : (drivesAt l s).1 = .released)
    (hw : l ≠ .rx2 ∧ l ≠ .rx11) (hb : g.toBlock = s.toBlock) (hs : politeAt s = true) (hm : politeMove s g = true) :
    levels g = levels s := by
  have hscl : level s .scl = true := by
    rw [level_of_released (x := .scl) ((hi.drvScl_at hl).trans hr), extOf_scl, extScl_of_polite hi hl hr hw hs]
    rfl
  obtain hsame | ⟨hls, -⟩ | ⟨hls, -⟩ := politeMove_cases hb hs hm
  · exact hsame
  all_goals rw [hscl] at hls; cases hls

/-- A step of a polite bus in a transaction, seen by the observer. -/
theorem Watched.bus (h : Watched N s o acks) (hi : Inv s) (hp : s.ph ≠ .idle) (hb : g.toBlock = s.toBlock)
    (hs : politeAt s = true) (hm : politeMove s g = true) : Watched N g (o.look (levels g)) acks := by
  have hlg (l : Label) : labelAt g.ph g.u = some l ↔ labelAt s.ph s.u = some l := by rw [hb]
  cases h with
  | ready hl hlast hseen hbits hacks htotal =>
    have hsame := levels_of_polite hi hl rfl (by simp) hb hs hm
    rw [Observer.look_same (hlast.trans hsame.symm)]
    exact .ready ((hlg _).2 hl) (hlast.trans hsame.symm) hseen hbits hacks (hb ▸ htotal)
  | running hl hbtw h =>
    obtain ⟨bs', h'⟩ := h.move (.of_bus hi hl hb hs hm)
    rw [List.append_nil] at h'
    exact .running ((hlg _).2 hl) hbtw h'
  | stopped hl hsp hlast h =>
    have hsame : levels g = levels s := by
      rcases hsp with rfl | rfl <;> exact levels_of_polite hi hl rfl (by simp) hb hs hm
    rw [Observer.look_same (hlast.trans hsame.symm)]
    exact .stopped ((hlg _).2 hl) hsp (hlast.trans hsame.symm) h
  | ended hi _ => exact absurd hi hp

/-- The step `ST0` of a polite bus, seen by the observer: the start condition. -/
theorem Watched.st0 (hi : Inv s) (hl : labelAt s.ph s.u = some .st0) (hs : politeAt s = true)
    (h : runLabel .st0 s = .next t) (hlast : o.last = levels s) (hseen : o.seen = [])
    (htotal : byteCount s.toBlock = N) : Watched N t (o.look (levels t)) [] := by
  obtain ⟨t', ht, hv, hv'⟩ := engineStep_st0_levels hi hl (extScl_of_polite hi hl rfl (by simp) hs)
    ((politeAt_iff.1 hs).2 (.inl hl))
  obtain rfl : t' = t := Host.Outcome.next.inj (ht.symm.trans ((engineStep_of_label hl).trans h))
  have hlook := Observer.look_start (hlast.trans hv) hv'
  cases h
  refine .running (l := .st1) (bs := []) (labelAt_advance hl rfl) rfl ⟨o.look_last _, ?_, ?_, rfl, htotal⟩
  · rw [hlook]
    exact ⟨by rw [hseen]; rfl, rfl, Nat.zero_le _⟩
  · exact List.nil_prefix

/-- The step `SP4` of a polite bus, seen by the observer: the stop condition, after all bytes. -/
theorem Watched.sp4 (hi : Inv s) (hl : labelAt s.ph s.u = some .sp4) (hs : politeAt s = true)
    (h : runLabel .sp4 s = .next t) (ha : Agrees N .sp4 s o acks bs) : Watched N t (o.look (levels t)) acks := by
  obtain ⟨t', ht, hv, hv'⟩ := engineStep_sp4_levels hi hl (extScl_of_polite hi hl rfl (by simp) hs)
    ((politeAt_iff.1 hs).2 (.inr hl))
  obtain rfl : t' = t := Host.Outcome.next.inj (ht.symm.trans ((engineStep_of_label hl).trans h))
  have hlook := Observer.look_stop (ha.last.trans hv) hv'
  have hrises : 9 * bs.length + o.bits.length = 9 * byteCount s.toBlock + 1 := ha.reports.rises
  have hbits := ha.reports.bits
  have htotal := ha.total
  have hshown : acks <+: bs.map Prod.snd := by simpa [pendingAck] using ha.shown
  cases h
  refine .stopped (l := .sp5) (labelAt_advance hl rfl) (.inl rfl) (o.look_last _) ⟨bs, ?_, ?_, hshown⟩
  · rw [hlook, ha.reports.seen]
    rfl
  · rw [if_pos rfl]
    omega

/-- The step `AF0`, seen by the observer: nothing more, and the last byte seen is the one whose acknowledgment was
sampled last. -/
theorem Watched.af0 (h : runLabel .af0 s = .next t) (ha : Agrees N .af0 s o acks bs) :
    Watched N t (o.look (levels t)) acks := by
  rw [Observer.look_same (ha.last.trans (runLabel_levels h).symm)]
  have hrises : 9 * bs.length + o.bits.length = 9 * (s.k.toNat + 1) := ha.reports.rises
  have hbits := ha.reports.bits
  have hcount : acks.length = s.k.toNat + 1 := ha.count
  have hshown : acks <+: bs.map Prod.snd := by simpa [pendingAck] using ha.shown
  cases h
  refine .ended rfl ⟨bs, ?_, ?_, hshown⟩
  · rw [ha.reports.seen]
    exact (List.append_nil _).symm
  · change bs.length = acks.length
    omega

/-- A labelled step of a transaction on a polite bus, seen by the observer. -/
theorem Watched.engine (h : Watched N s o acks) (hi : Inv s) (hl : labelAt s.ph s.u = some l) (hs : politeAt s = true)
    (hrun : runLabel l s = .next t) (ht : t.ph ≠ .idle → politeAt t = true) :
    Watched N t (o.look (levels t)) (acks ++ sampledAck l s) := by
  have hlabel {m : Label} (hm : labelAt s.ph s.u = some m) : l = m := Option.some.inj (hl.symm.trans hm)
  cases h with
  | ready hl' hlast hseen hbits hacks htotal =>
    obtain rfl := hlabel hl'
    subst hacks
    exact .st0 hi hl hs hrun hlast hseen htotal
  | running hl' hb ha =>
    obtain rfl := hlabel hl'
    by_cases h4 : l = .sp4
    · subst h4
      exact (List.append_nil acks).symm ▸ .sp4 hi hl hs hrun ha
    by_cases hf : l = .af0
    · subst hf
      exact (List.append_nil acks).symm ▸ .af0 hrun ha
    obtain ⟨l', hl', hb', hm⟩ := movesOn hi hl hrun hb h4 hf ht
    obtain ⟨bs', ha'⟩ := ha.move hm
    exact .running hl' hb' ha'
  | stopped hl' hsp hlast hfin =>
    obtain rfl := hlabel hl'
    rw [Observer.look_same (hlast.trans (by rw [runLabel_levels hrun]; rcases hsp with rfl | rfl <;> rfl))]
    rcases hsp with rfl | rfl
    · cases hrun
      exact .stopped (labelAt_advance hl rfl) (.inr rfl) hlast ((List.append_nil acks).symm ▸ hfin)
    · cases hrun
      exact .ended rfl ((List.append_nil acks).symm ▸ hfin)
  | ended hp _ => rw [hp, labelAt_idle] at hl; cases hl

/-! ### The steps of the machine -/

/-- A labelled step keeps the schedule. -/
theorem runLabel_sched (h : runLabel l s = .next t) : t.sched = s.sched := by
  obtain ⟨m, b, hm, hc⟩ | ⟨-, rfl⟩ := runLabel_cases h
  · have hms : m.sched = s.sched := by rw [run_frame hm]
    obtain hf | rfl | rfl | ⟨-, rfl⟩ := conclude_frame hc
    · rw [hf]; exact hms
    all_goals exact hms
  · rfl

/-- What one step of the machine adds to the observer and to the acknowledgments, in a transaction on a polite bus
without `rst`. -/
theorem Watched.step (h : Watched N s o acks) (hi : Inv s) (hp : s.ph ≠ .idle) (hr : .rst ∉ s.sched)
    (hpol : politeStep s = true) (hu : Machine.step s = .next u) (hupol : u.ph ≠ .idle → politeAt u = true) :
    Watched N u ((stepLevels s).foldl Observer.look o) (acks ++ atLabel .tx9 (level · .sda) s) ∧ .rst ∉ u.sched := by
  obtain ⟨hs, hpol⟩ := Bool.and_eq_true_iff.1 hpol
  obtain ⟨a, b, es, he, rfl⟩ | ⟨es, he, -⟩ | ⟨g, hg, hb⟩ := step_cases hu
  · have hgrant : grant s = none := by simp [grant, he]
    obtain ⟨hm, -⟩ : politeMove s _ = true ∧ politeAt _ = true := by simpa [hgrant, hu] using hpol
    refine ⟨?_, fun hmem => hr (he ▸ List.mem_cons_of_mem _ hmem)⟩
    rw [atLabel_none _ _ hgrant, List.append_nil, stepLevels, hgrant, hu]
    exact h.bus hi hp rfl hs hm
  · exact absurd (he ▸ List.mem_cons_self) hr
  · have hf := grant_frame hg
    have hgb : g.toBlock = s.toBlock := by rw [hf]
    have hgi : Inv g := by rw [hf]; exact hi.congr rfl rfl
    have hgp : g.ph ≠ .idle := by rw [hgb]; exact hp
    obtain ⟨hm, hgpol⟩ : politeMove s g = true ∧ politeAt g = true := by simpa [hg] using hpol
    obtain ⟨hidle, -⟩ | ⟨-, l, hl, hrun⟩ := blockStep_cases hb
    · exact absurd hidle hgp
    · refine ⟨?_, ?_⟩
      · have hsample : atLabel .tx9 (level · .sda) s = sampledAck l g := by
          rw [atLabel_turn _ _ hg, hl, sampledAck]
          simp
        rw [hsample, stepLevels, hg, hu]
        exact (h.bus hi hp hgb hs hm).engine hgi hl hgpol hrun hupol
      · rw [runLabel_sched hrun, hf]
        exact fun hmem => hr (List.mem_of_mem_tail hmem)

theorem politeBus_succ (hs : step s = .next u) :
    politeBus (n + 1) s = true ↔ politeStep s = true ∧ politeBus n u = true := by
  rw [politeBus, along_succ _ n hs]
  simp [politeBus]

theorem wire_succ (n : Nat) (hs : step s = .next u) : wire (n + 1) s = stepLevels s ++ wire n u :=
  along_succ stepLevels n hs

theorem ackSamples_succ (n : Nat) (hs : step s = .next u) :
    ackSamples (n + 1) s = atLabel .tx9 (level · .sda) s ++ ackSamples n u :=
  along_succ _ n hs

/-- The observer along a transaction on a polite bus, by induction on its steps. -/
theorem Watched.run (h : Watched N s o acks) (hi : Inv s) (hr : .rst ∉ s.sched) (hpol : politeBus n s = true)
    (ht : TransactionEnd n s t) : Watched N t ((wire n s).foldl Observer.look o) (acks ++ ackSamples n s) := by
  induction n generalizing s o acks with
  | zero =>
    obtain rfl : s = t := Host.Outcome.next.inj ht.ran
    exact (List.append_nil acks).symm ▸ h
  | succ n ih =>
    have hp : s.ph ≠ .idle := ht.busy 0 s (Nat.succ_pos n) rfl
    obtain ⟨u, hu⟩ := noFaultAndNoRefusal s hi
    obtain ⟨hstep, hrest⟩ := (politeBus_succ hu).1 hpol
    have htail := ht.tail hu
    have hupol : u.ph ≠ .idle → politeAt u = true := by
      intro hup
      cases n with
      | zero =>
        obtain rfl : u = t := Host.Outcome.next.inj htail.ran
        exact absurd htail.idle hup
      | succ n =>
        obtain ⟨v, hv⟩ := noFaultAndNoRefusal u (everyStepKeepsTheInvariant s u hi hu)
        exact (Bool.and_eq_true_iff.1 ((politeBus_succ hv).1 hrest).1).1
    obtain ⟨hw, hur⟩ := h.step hi hp hr hstep hu hupol
    have hall := ih hw (everyStepKeepsTheInvariant s u hi hu) hur hrest htail
    rw [wire_succ n hu, ackSamples_succ n hu, List.foldl_append, ← List.append_assoc]
    exact hall

/-- At the end of a transaction the observer has finished with it. -/
theorem Watched.finished (h : Watched N s o acks) (hp : s.ph = .idle) : Finished N s.lastok o acks := by
  cases h with
  | ended _ h => exact h
  | ready hl | running hl | stopped hl => rw [hp, labelAt_idle] at hl; cases hl

/-- Settles O40: the conditions label by label, and the transaction by induction on its steps, with the observer kept in
agreement with the counts of the engine. -/
theorem startAndStopConditions : Obligations.StartAndStopConditions := by
  intro s hi
  refine ⟨fun hp hu hc hd => ?_, fun hp hu hc hd => ?_, fun t ht => ?_, fun n t hp hu hr ht hpol => ?_⟩
  · obtain ⟨t, ht, hv, hv'⟩ := engineStep_st0_levels hi (labelAt_iff.2 ⟨hp, hu⟩) hc hd
    exact ⟨t, ht, by rw [startCondition, hv, hv']; rfl, by rw [stopCondition, hv, hv']; rfl⟩
  · obtain ⟨t, ht, hv, hv'⟩ := engineStep_sp4_levels hi (labelAt_iff.2 ⟨hp, hu⟩) hc hd
    exact ⟨t, ht, by rw [stopCondition, hv, hv']; rfl, by rw [startCondition, hv, hv']; rfl⟩
  · obtain ⟨l, hl, hrun⟩ := engineStep_cases ht
    obtain ⟨hstart, hstop⟩ := runLabel_conditions hi hl hrun
    exact ⟨fun h => labelAt_iff.1 (hstart h ▸ hl), fun h => labelAt_iff.1 (hstop h ▸ hl)⟩
  · have hready : Watched (byteCount s.toBlock) s (Observer.begin (levels s)) [] :=
      .ready (labelAt_iff.2 ⟨hp, hu⟩) rfl rfl rfl rfl rfl
    obtain ⟨bs, hseen, hlen, hacks⟩ := (hready.run hi hr hpol ht).finished ht.idle
    exact ⟨bs, hseen, hlen, (List.prefix_iff_eq_take.1 hacks).symm⟩

end Machine
end Sys2Proof
end

section
/-! PROOFS. What each command does, said once as an equation per case (R181 to R195); the statements about the single
commands, the error of an empty buffer and the direction bit at an `EXECW` are read off these. -/

namespace Sys2Proof
namespace Machine

variable {s g t : State} {n : Nat} {v : Byte}

/-! ### The Transfer Buffer after a write -/

/-- The byte written is the one read back (R28). -/
theorem readTb_write_same (ht : t.tb = Memory.write s.tb n v) (hn : n < 33) : readTb t n = some v := by
  rw [readTb_eq hn, ht, Memory.read_write_same]

/-- The other bytes are as before. -/
theorem readTb_write_other (hc : t.cfg = s.cfg) (ht : t.tb = Memory.write s.tb n v) :
    ∀ m, m ≠ n → readTb t m = readTb s m := by
  intro m hm
  simp only [readTb, hc, ht, Memory.read_write_other _ _ hm]

/-! ### Commands that answer at once -/

theorem exec_init (hp : s.ph = .idle) :
    exec .init s = .next { s with drvScl := .released, drvSda := .released, rsp := some 0x0100 } :=
  whenIdle_idle hp _

/-- Settles O14: the invariant has both lines released in `IDLE`, so that releasing them changes nothing. -/
theorem initReleasesBothLines : Obligations.InitReleasesBothLines := by
  refine ⟨fun s hp => exec_init hp, fun s hi hp => ?_, fun v w hop himm => ?_⟩
  · obtain ⟨hscl, hsda⟩ := hi.released_idle hp
    obtain ⟨⟨⟩, _⟩ := s
    cases hscl
    cases hsda
    exact exec_init hp
  · exact decode_eq_reservedOperand_iff.2 (.inl ⟨.inl hop, himm⟩)

theorem exec_setaddr (a7 : BitVec 7) (hp : s.ph = .idle) :
    exec (.setaddr a7) s = .next { s with
      tb := Memory.write s.tb 0 (a7 ++ 0#1), len := 1, rsp := some (responseWord false true (a7 ++ 0#1)) } :=
  whenIdle_idle hp _

/-- The low bits of a word are those of its operand (R94). -/
theorem extractLsb'_immField (w : Word) : (immField w).extractLsb' 0 7 = w.extractLsb' 0 7 := by
  ext i hi
  simp [immField]

/-- Settles O15: one write of `TB[0]`, and the operand form `a7` of the decoder. -/
theorem setaddrStoresTheAddressByte : Obligations.SetaddrStoresTheAddressByte := by
  refine ⟨fun s a7 hp => ⟨_, exec_setaddr a7 hp, rfl, ?_, ?_, rfl⟩, fun v w hop => ⟨fun h7 => ?_, fun h7 => ?_⟩⟩
  · exact readTb_write_same (s := s) rfl (by decide)
  · exact readTb_write_other rfl rfl
  · exact decode_eq_reservedOperand_iff.2 (.inr ⟨hop, h7⟩)
  · rw [decode_op_setaddr hop, decodeA7, h7, ← extractLsb'_immField]
    rfl

/-- Settles O16: the three cases of `LEN` are those of one `APPEND`. -/
theorem appendStoresOrDropsOrErrs : Obligations.AppendStoresOrDropsOrErrs := by
  intro s b8 hp
  refine ⟨fun hl => exec_append_noAddress b8 hp hl, fun h0 h33 => ?_, fun h33 => ?_⟩
  · refine ⟨_, exec_append_stored b8 hp (len_pos h0) h33, rfl, ?_, ?_, ?_⟩
    · rw [respond_len, setLen_len]
      bv_omega
    · exact readTb_write_same (s := s) rfl h33
    · exact readTb_write_other rfl rfl
  · have h0 : s.len ≠ 0 := by bv_omega
    exact (whenIdle_idle hp _).trans ((if_neg h0).trans (if_neg (by simpa using h33)))

/-- Settles O21: `RDRX` compares its index with `RXCNT`, and an index below it is one of `RB`. -/
theorem rdrxAnswersTheReceivedByte : Obligations.RdrxAnswersTheReceivedByte := by
  intro s n8 hp
  refine ⟨fun hv => ?_, fun hv hn => ?_, fun hv hn => ?_⟩
  · simp only [exec, execRdrx, whenIdle_idle hp, hv]
    rfl
  · simp only [exec, execRdrx, whenIdle_idle hp, hv, if_pos (BitVec.le_def.2 hn)]
    rfl
  · refine ⟨_, readRb_eq (by omega), ?_⟩
    simp only [exec, execRdrx, whenIdle_idle hp, hv, if_neg (mt BitVec.le_def.1 (Nat.not_le.2 hn))]
    rfl

/-- The bits of a status view, by the values of its three flags (R42). -/
theorem status_bits (x y z : Bool) :
    let v : Byte := 0#5 ++ BitVec.ofBool x ++ BitVec.ofBool y ++ BitVec.ofBool z
    v.getLsbD 0 = z ∧ v.getLsbD 1 = y ∧ v.getLsbD 2 = x ∧ v.extractLsb' 3 5 = 0 := by
  revert x y z
  decide

/-- Settles O22: the answer is `status`, whose bits are `AV`, `LASTOK` and `RWV`. -/
theorem rdstatAnswersTheStatusView : Obligations.RdstatAnswersTheStatusView := by
  refine ⟨fun s hp => ?_, fun v w hop himm => ?_⟩
  · obtain ⟨hav, hok, hrw, hzero⟩ := status_bits (rwVariant s) s.lastok (addressValid s)
    exact ⟨status s, whenIdle_idle hp _, by rw [status, hav]; exact decide_eq_true_iff, hok,
      by rw [status, hrw]; exact decide_eq_true_iff, hzero⟩
  · exact decode_eq_reservedOperand_iff.2 (.inl ⟨.inr (.inr hop), himm⟩)

/-! ### Commands that start a transaction -/

/-- With no address set `EXECW` is a command error (R188). -/
theorem exec_execw_noAddress (hp : s.ph = .idle) (hl : s.len = 0) :
    exec .execw s = .next { s with rsp := some 0x8003 } :=
  (whenIdle_idle hp _).trans (if_pos hl)

/-- What `EXECW` leaves in the Transfer Buffer: the read/write variant forces the direction bit (R189). -/
def tbAfterExecw (s : State) : Memory :=
  match s.cfg.variant with
  | .rw => Memory.write s.tb 0 (withDirWrite (Memory.read s.tb 0))
  | .wo => s.tb

theorem tbAfterExecw_rw (hv : s.cfg.variant = .rw) :
    tbAfterExecw s = Memory.write s.tb 0 (withDirWrite (Memory.read s.tb 0)) := by
  simp only [tbAfterExecw, hv]

theorem tbAfterExecw_wo (hv : s.cfg.variant = .wo) : tbAfterExecw s = s.tb := by
  simp only [tbAfterExecw, hv]

/-- With an address set `EXECW` starts a write (R188). -/
theorem exec_execw_started (hp : s.ph = .idle) (hl : s.len ≠ 0) :
    exec .execw s = .next { s with tb := tbAfterExecw s, mode := .w, ph := .start, u := 0 } := by
  cases hv : s.cfg.variant with
  | wo =>
    rw [tbAfterExecw_wo hv]
    simp only [exec, execExecw, whenIdle_idle hp, if_neg hl, hv]
    rfl
  | rw =>
    rw [tbAfterExecw_rw hv]
    simp only [exec, execExecw, whenIdle_idle hp, if_neg hl, hv]
    rfl

/-- Settles O19: the two cases of `LEN`, and of the variant. -/
theorem execwStartsAWrite : Obligations.ExecwStartsAWrite := by
  intro s hp
  refine ⟨exec_execw_noAddress hp, fun hl => ⟨_, exec_execw_started hp hl, rfl, fun hv => ?_, tbAfterExecw_wo, ?_⟩⟩
  · exact readTb_write_same (s := s) (tbAfterExecw_rw hv) (by decide)
  · cases hv : s.cfg.variant with
    | wo => exact fun m _ => readTb_congr (by rfl) (tbAfterExecw_wo hv) m
    | rw => exact readTb_write_other rfl (tbAfterExecw_rw hv)

/-- In the write-only variant `EXECR` is an illegal opcode (R104). -/
theorem exec_execr_wo (n8 : BitVec 8) (hp : s.ph = .idle) (hv : s.cfg.variant = .wo) :
    exec (.execr n8) s = .next { s with rsp := some 0x8001 } := by
  simp only [exec, execExecr, whenIdle_idle hp, hv]
  rfl

/-- With no address set `EXECR` is a command error (R191). -/
theorem exec_execr_noAddress (n8 : BitVec 8) (hp : s.ph = .idle) (hv : s.cfg.variant = .rw) (hl : s.len = 0) :
    exec (.execr n8) s = .next { s with rsp := some 0x8003 } := by
  simp only [exec, execExecr, whenIdle_idle hp, hv, if_pos hl]
  rfl

/-- With an address set `EXECR` sets the direction bit and starts a read (R191). -/
theorem exec_execr_started (n8 : BitVec 8) (hp : s.ph = .idle) (hv : s.cfg.variant = .rw) (hl : s.len ≠ 0) :
    exec (.execr n8) s = .next { s with
      tb := Memory.write s.tb 0 (withDirRead (Memory.read s.tb 0)), mode := .r, nreq := n8, ph := .start, u := 0 } := by
  simp only [exec, execExecr, whenIdle_idle hp, hv, if_neg hl]
  rfl

/-- Settles O20: the cases of the variant and of `LEN`. -/
theorem execrStartsARead : Obligations.ExecrStartsARead := by
  intro s n8 hp
  refine ⟨exec_execr_wo n8 hp, exec_execr_noAddress n8 hp,
    fun hv hl => ⟨_, exec_execr_started n8 hp hv hl, rfl, ?_, ?_⟩⟩
  · exact readTb_write_same (s := s) rfl (by decide)
  · exact readTb_write_other rfl rfl

/-- Settles O17: each of the three tests `LEN` before it does anything. -/
theorem emptyBufferIsNoAddress : Obligations.EmptyBufferIsNoAddress :=
  fun _ hp hl => ⟨fun b8 => exec_append_noAddress b8 hp hl, exec_execw_noAddress hp hl,
    fun hv n8 => exec_execr_noAddress n8 hp hv hl⟩

/-- Settles O24: the invariant has the direction bit at write in `IDLE`, and forcing it keeps it so. -/
theorem directionBitIsWriteAtEveryExecw : Obligations.DirectionBitIsWriteAtEveryExecw := by
  intro s hi hp hl
  have hdir := hi.direction_idle hp (len_pos hl)
  refine ⟨hdir, _, exec_execw_started hp hl, fun hv => ?_, tbAfterExecw_wo, ?_⟩
  · exact readTb_write_same (s := s) (tbAfterExecw_rw hv) (by decide)
  · cases hv : s.cfg.variant with
    | wo => exact (congrArg (fun m => bitAt (Memory.read m 0) 0) (tbAfterExecw_wo hv)).trans hdir
    | rw =>
      refine (congrArg (fun m => bitAt (Memory.read m 0) 0) (tbAfterExecw_rw hv)).trans ?_
      rw [Memory.read_write_same]
      exact bitAt_withDirWrite_zero _

/-! ### The empty buffer (R31, R196) -/

/-- The end of a labelled step that returns to `IDLE` leaves the buffer empty (R31). -/
theorem conclude_empties {l : Label} {b : Bool} (hp : s.ph ≠ .idle) (h : conclude l b s = .next t) (ht : t.ph = .idle) :
    t.len = 0 := by
  rcases conclude_advance_or l with ⟨ha, -⟩ | rfl | rfl | rfl | rfl | rfl | rfl | rfl | rfl | rfl | rfl
  · rw [ha] at h; cases h; exact absurd ht hp
  · obtain rfl := loadByte_next (n := 0) h; cases ht
  · cases h; rw [nextBit_eq] at ht; exact absurd ht hp
  · cases h; cases b <;> cases ht
  · obtain ⟨-, -, h⟩ | rfl | ⟨-, -, rfl⟩ := dispatchAfterAck_cases h
    · obtain rfl := loadByte_next h; cases ht
    · cases ht
    · cases ht
  · cases h; rfl
  · cases h; exact absurd ht hp
  · cases h; rw [nextBit_eq] at ht; exact absurd ht hp
  · obtain ⟨-, rfl⟩ := storeReceived_next h; exact absurd ht hp
  · cases h
    unfold nextReceived at ht
    split at ht
    · exact absurd ht hp
    · cases ht
  · cases h; rfl

/-- A labelled step that returns to `IDLE` leaves the buffer empty (R31). -/
theorem runLabel_empties {l : Label} (hp : s.ph ≠ .idle) (h : runLabel l s = .next t) (ht : t.ph = .idle) :
    t.len = 0 := by
  obtain ⟨m, b, hm, hc⟩ | ⟨-, rfl⟩ := runLabel_cases h
  · exact conclude_empties (by rw [run_frame hm]; exact hp) hc ht
  · exact absurd ht hp

/-- A step that returns to `IDLE` leaves the buffer empty: it ends a transaction or is a reset cycle (R31, R44). -/
theorem step_empties (hp : s.ph ≠ .idle) (h : step s = .next t) (ht : t.ph = .idle) : t.len = 0 := by
  obtain ⟨a, b, es, -, rfl⟩ | ⟨es, -, rfl⟩ | ⟨g, hg, hb⟩ := step_cases h
  · exact absurd ht hp
  · rfl
  · have hgp : g.ph ≠ .idle := by rw [grant_frame hg]; exact hp
    obtain ⟨hi, -⟩ | ⟨-, l, -, hrun⟩ := blockStep_cases hb
    · exact absurd hi hgp
    · exact runLabel_empties hgp hrun ht

/-- Of the commands `SETADDR` alone puts a byte into an empty buffer or leaves `IDLE` with one (R196). -/
theorem exec_empty {i : Instr} (hl : s.len = 0) (h : exec i s = .next t) :
    (t.ph = .idle ∧ t.len = 0) ∨ ∃ a7, i = .setaddr a7 := by
  cases i with
  | setaddr a7 => exact .inr ⟨a7, rfl⟩
  | init => obtain ⟨hp, h⟩ := whenIdle_next h; cases h; exact .inl ⟨hp, hl⟩
  | append b8 =>
    obtain ⟨hp, ⟨-, rfl⟩ | ⟨h0, -⟩ | ⟨h0, -⟩⟩ := execAppend_cases h
    · exact .inl ⟨hp, hl⟩
    all_goals exact absurd hl h0
  | execw =>
    obtain ⟨hp, ⟨-, rfl⟩ | ⟨h0, -⟩ | ⟨h0, -⟩⟩ := execExecw_cases h
    · exact .inl ⟨hp, hl⟩
    all_goals exact absurd hl h0
  | execr n8 =>
    obtain ⟨hp, ⟨-, rfl⟩ | ⟨-, -, rfl⟩ | ⟨-, h0, -⟩⟩ := execExecr_cases h
    · exact .inl ⟨hp, hl⟩
    · exact .inl ⟨hp, hl⟩
    · exact absurd hl h0
  | rdrx n8 => obtain ⟨hp, ⟨-, rfl⟩ | ⟨-, -, rfl⟩ | ⟨-, -, rfl⟩⟩ := execRdrx_cases h <;> exact .inl ⟨hp, hl⟩
  | rdstat => obtain ⟨hp, h⟩ := whenIdle_next h; cases h; exact .inl ⟨hp, hl⟩

/-- An empty buffer stays empty over a step in `IDLE` that accepts no `SETADDR`. -/
theorem step_empty (hp : s.ph = .idle) (hl : s.len = 0) (h : step s = .next t) :
    (t.ph = .idle ∧ t.len = 0) ∨
      ∃ g w ws a7, grant s = some g ∧ s.cmds = w :: ws ∧ decode s.cfg.variant w = .ok (.setaddr a7) := by
  obtain ⟨a, b, es, -, rfl⟩ | ⟨es, -, rfl⟩ | ⟨g, hg, hb⟩ := step_cases h
  · exact .inl ⟨hp, hl⟩
  · exact .inl ⟨rfl, rfl⟩
  · have hf := grant_frame hg
    have hgp : g.ph = .idle := by rw [hf]; exact hp
    have hgl : g.len = 0 := by rw [hf]; exact hl
    rw [blockStep_idle hgp] at hb
    obtain ⟨-, rfl⟩ | ⟨w, ws, e, -, -, rfl⟩ | ⟨w, ws, i, hc, hd, he⟩ := hostStep_cases hb
    · exact .inl ⟨hgp, hgl⟩
    · exact .inl ⟨hgp, hgl⟩
    · obtain hempty | ⟨a7, rfl⟩ := exec_empty (s := { g with cmds := ws }) hgl he
      · exact .inl hempty
      · rw [hf] at hc hd
        exact .inr ⟨g, w, ws, a7, hg, hc, hd⟩

/-- Settles O53: the end of a transaction, the steps in `IDLE` after it, and the three commands that need an address. -/
theorem bufferIsEmptyAfterATransaction : Obligations.BufferIsEmptyAfterATransaction := by
  refine ⟨fun s t hp h ht => ?_, fun s t hp hl h => step_empty hp hl h, fun t hp hl => ?_⟩
  · have hl := step_empties hp h ht
    exact ⟨hl, by rw [addressValid, hl]; rfl⟩
  · exact ⟨exec_execw_noAddress hp hl, fun b8 => exec_append_noAddress b8 hp hl,
      fun hv n8 => exec_execr_noAddress n8 hp hv hl⟩

end Machine
end Sys2Proof
end

section
/-! PROOFS. The log of a transaction: the micro-operations that it has completed and the levels that it has sampled are
a function of where the engine is. A labelled step adds its own micro-operation and its sample to the log, and moves the
engine to where the function gives the longer log. -/

namespace Sys2Proof
namespace Machine

variable {s t m : State} {l : Label} {b : Bool}

/-! ### Logs -/

/-- What a run has completed, and the levels of `SDA` that it has sampled at `TX9` and at `RX3`. -/
structure Log where
  ops  : List MicroOp
  acks : List Bool
  rxs  : List Bool

/-- One log after another. -/
def Log.add (x y : Log) : Log := ⟨x.ops ++ y.ops, x.acks ++ y.acks, x.rxs ++ y.rxs⟩

theorem Log.add_empty (x : Log) : x.add ⟨[], [], []⟩ = x := by simp [Log.add]

theorem Log.add_assoc (x y z : Log) : (x.add y).add z = x.add (y.add z) := by simp [Log.add]

/-! ### The log as a function of the position -/

/-- The first `n` bytes of the buffer, each transmitted and acknowledged (R144, R145, R147). -/
def sentOps (tb : Memory) (n : Nat) : List MicroOp :=
  ((List.range n).map (Memory.read tb)).flatMap fun b => txByteOps b ++ ackOkOps

/-- The number of bytes that a transaction transmits if all are acknowledged (R148, R149). -/
def sentCount (s : State) : Nat :=
  match s.mode with
  | .w => s.len.toNat
  | .r => 1

/-- The first `j` bytes received, of `n` (R153, R154). -/
def receivedOps (n j : Nat) : List MicroOp := (List.range j).flatMap fun k => rxByteOps (k + 1 = n)

/-- What a transaction that reaches STOP has received before it: a read `n` bytes, a write none (R149, R155). -/
def receptionOps (x : XferMode) (n : Nat) : List MicroOp :=
  match x with
  | .w => []
  | .r => rxOps n

/-- What the transaction had completed when the engine came to the current round of the current list of labels. -/
def roundOps (s : State) : List MicroOp :=
  match s.ph with
  | .idle | .start => []
  | .byteTransfer => startOps ++ sentOps s.tb s.k.toNat ++ (bitOrder.take (7 - s.i.toNat)).flatMap (txBitOps s.sh)
  | .ackOk | .ackFail => startOps ++ sentOps s.tb s.k.toNat ++ txByteOps (Memory.read s.tb s.k.toNat)
  | .byteReceive =>
    startOps ++ sentOps s.tb 1 ++ receivedOps s.nreq.toNat s.j.toNat ++
      (bitOrder.take (7 - s.i.toNat)).flatMap fun _ => rxBitOps
  | .stop => startOps ++ sentOps s.tb (sentCount s) ++ receptionOps s.mode s.nreq.toNat

/-- The micro-operations completed: those before the current round, and those of its labels before `upc` (R141). -/
def opsBefore (s : State) : List MicroOp :=
  roundOps s ++ ((stepList s.ph).take s.u.toNat).map fun l => microOp l s

/-- The acknowledgments sampled: every byte before the current one was acknowledged (R145, R147). -/
def acksBefore (s : State) : List Bool :=
  match s.ph with
  | .idle | .start => []
  | .byteTransfer => List.replicate s.k.toNat false
  | .ackOk => List.replicate (s.k.toNat + 1) false
  | .ackFail => List.replicate s.k.toNat false ++ [true]
  | .byteReceive => [false]
  | .stop => List.replicate (sentCount s) false

/-- The bits of a byte in the order of the wire (R63). -/
def wireBits (v : Byte) : List Bool := bitOrder.map (bitAt v)

/-- The bits of the first `n` bytes of `RB`, in the order of the wire. -/
def rbBits (rb : Memory) (n : Nat) : List Bool := (List.range n).flatMap fun k => wireBits (Memory.read rb k)

/-- The data bits that a transaction has sampled when it reaches STOP (R149, R155). -/
def receptionBits (x : XferMode) (rb : Memory) (n : Nat) : List Bool :=
  match x with
  | .w => []
  | .r => rbBits rb n

/-- The data bits sampled: those of the bytes stored in `RB`, and those of the next byte in `SH` (R153, R155). -/
def rxsBefore (s : State) : List Bool :=
  match s.ph with
  | .byteReceive =>
    if s.u ≤ 6 then
      rbBits s.rb s.j.toNat ++ (bitOrder.take (if s.u ≤ 3 then 7 - s.i.toNat else 8 - s.i.toNat)).map (bitAt s.sh)
    else rbBits s.rb (s.j.toNat + 1)
  | .stop => receptionBits s.mode s.rb s.nreq.toNat
  | .idle | .start | .byteTransfer | .ackOk | .ackFail => []

def logBefore (s : State) : Log := ⟨opsBefore s, acksBefore s, rxsBefore s⟩

/-- After the bit loop of a byte, `I` is 0 (R144, R153). -/
def LoopDone (s : State) : Prop := s.ph = .byteTransfer ∨ s.ph = .byteReceive → 6 ≤ s.u → s.i = 0

/-- A completed labelled step from `s` leads to `t`, where the log is longer by `x`. -/
structure Extends (x : Log) (s t : State) : Prop where
  log : logBefore t = (logBefore s).add x
  loop : LoopDone t

/-! ### Steps that only go on to the next label -/

theorem microOp_applyEvent (l : Label) (e : Option (Line × Drive)) (s : State) :
    microOp l (applyEvent e s) = microOp l s := by
  rcases e with _ | ⟨_ | _, _⟩ <;> cases l <;> rfl

theorem logBefore_applyEvent (e : Option (Line × Drive)) (s : State) : logBefore (applyEvent e s) = logBefore s := by
  rcases e with _ | ⟨_ | _, _⟩ <;> rfl

theorem microOp_advance (l : Label) (s : State) : microOp l (advance s) = microOp l s := by cases l <;> rfl

/-- A label stands in its list at the index `U`, and the list is short. -/
theorem stepList_of_labelAt (h : labelAt s.ph s.u = some l) :
    (stepList s.ph)[s.u.toNat]? = some l ∧ s.u.toNat < 18 := by
  refine ⟨h, (List.getElem?_eq_some_iff.1 h).1.trans_le ?_⟩
  cases s.ph <;> decide

theorem opsBefore_advance (h : labelAt s.ph s.u = some l) : opsBefore (advance s) = opsBefore s ++ [microOp l s] := by
  obtain ⟨hl, hlt⟩ := stepList_of_labelAt h
  have hu : (s.u + 1).toNat = s.u.toNat + 1 := by bv_omega
  have hround : roundOps (advance s) = roundOps s := rfl
  simp only [opsBefore, hround, advance_ph, advance_u, hu, List.take_add_one, hl, microOp_advance,
    List.map_append, List.append_assoc]
  rfl

theorem rxsBefore_advance (h : labelAt s.ph s.u = some l) (h3 : l ≠ .rx3) (h6 : l ≠ .rx6) :
    rxsBefore (advance s) = rxsBefore s := by
  cases hp : s.ph
  case byteReceive =>
    have hlt := (stepList_of_labelAt h).2
    rw [hp] at h
    have hu3 : s.u ≠ 3 := by rintro hu; rw [hu] at h; exact h3 (Option.some.inj h).symm
    have hu6 : s.u ≠ 6 := by rintro hu; rw [hu] at h; exact h6 (Option.some.inj h).symm
    have hle3 : s.u + 1 ≤ 3 ↔ s.u ≤ 3 := by bv_omega
    have hle6 : s.u + 1 ≤ 6 ↔ s.u ≤ 6 := by bv_omega
    simp only [rxsBefore, hp, advance_ph, advance_u, hle3, hle6]
    rfl
  case stop =>
    simp only [rxsBefore, hp, advance_ph]
    rfl
  all_goals simp only [rxsBefore, hp, advance_ph]

/-- The labels that take a sample, store a byte or close a bit have an end of their own. -/
theorem ne_of_conclude_advance (h : ∀ b s, conclude l b s = .next (advance s)) :
    l ≠ .tx5 ∧ l ≠ .tx9 ∧ l ≠ .rx3 ∧ l ≠ .rx5 ∧ l ≠ .rx6 := by
  have hs := h true { State.reset with sh := 2 }
  refine ⟨?_, ?_, ?_, ?_, ?_⟩ <;> rintro rfl <;> exact absurd (Host.Outcome.next.inj hs) (by decide)

theorem LoopDone.advance (h : LoopDone s) (hl : labelAt s.ph s.u = some l) (htx : l ≠ .tx5) (hrx : l ≠ .rx5) :
    LoopDone (advance s) := by
  intro hp hu
  have hlt := (stepList_of_labelAt hl).2
  have h5 : s.u ≠ 5 := by
    intro h5
    rw [h5] at hl
    rcases hp with hp | hp <;> rw [show s.ph = _ from hp] at hl
    · exact htx (Option.some.inj hl).symm
    · exact hrx (Option.some.inj hl).symm
  have hu' : (6 : BitVec 5) ≤ s.u + 1 := hu
  exact h hp (by bv_omega)

/-- A step that goes on to the next label, and neither samples nor stores, adds its micro-operation. -/
theorem logBefore_advance (hl : labelAt s.ph s.u = some l) (h3 : l ≠ .rx3) (h6 : l ≠ .rx6) :
    logBefore (advance s) = (logBefore s).add ⟨[microOp l s], [], []⟩ := by
  simp only [logBefore, Log.add, opsBefore_advance hl, rxsBefore_advance hl h3 h6, List.append_nil]
  rfl

theorem Extends.of_advance (e : Option (Line × Drive)) (h : ∀ b s, conclude l b s = .next (advance s))
    (hl : labelAt s.ph s.u = some l) (hd : LoopDone s) :
    Extends ⟨[microOp l s], [], []⟩ s (Machine.advance (applyEvent e s)) := by
  obtain ⟨htx5, -, hrx3, hrx5, hrx6⟩ := ne_of_conclude_advance h
  have hl' : labelAt (applyEvent e s).ph (applyEvent e s).u = some l := by simpa using hl
  have hd' : LoopDone (applyEvent e s) := by rcases e with _ | ⟨_ | _, _⟩ <;> exact hd
  refine ⟨?_, hd'.advance hl' htx5 hrx5⟩
  rw [logBefore_advance hl' hrx3 hrx6, logBefore_applyEvent, microOp_applyEvent]

end Machine
end Sys2Proof
end

section
/-! PROOFS. The log phase by phase, and the labelled steps with an end of their own: each of them starts a round of a
list of labels, samples, or stores, and each extends the log by its own micro-operation and its sample. -/

namespace Sys2Proof
namespace Machine

variable {s t m : State} {l : Label} {b : Bool}

/-! ### The log in each phase -/

theorem sentOps_succ (tb : Memory) (n : Nat) :
    sentOps tb (n + 1) = sentOps tb n ++ (txByteOps (Memory.read tb n) ++ ackOkOps) := by
  simp [sentOps, List.range_succ]

theorem receivedOps_succ (n j : Nat) : receivedOps n (j + 1) = receivedOps n j ++ rxByteOps (j + 1 = n) := by
  simp [receivedOps, List.range_succ]

theorem rbBits_succ (rb : Memory) (n : Nat) : rbBits rb (n + 1) = rbBits rb n ++ wireBits (Memory.read rb n) := by
  simp [rbBits, List.range_succ]

/-- A write of `RB[n]` leaves the bytes before it alone. -/
theorem rbBits_write (rb : Memory) (n : Nat) (v : Byte) : rbBits (Memory.write rb n v) n = rbBits rb n := by
  refine List.flatMap_congr fun k hk => ?_
  rw [Memory.read_write_other _ _ (List.mem_range.1 hk).ne]

theorem logBefore_start (hp : s.ph = .start) : logBefore s = ⟨startOps.take s.u.toNat, [], []⟩ := by
  simp only [logBefore, opsBefore, roundOps, acksBefore, rxsBefore, hp, List.map_take]
  rfl

/-- The micro-operations of the acknowledgment slot of a transmitted byte (R145). -/
def ackSlotOps : List MicroOp := [.rl .sda, .rl .scl, .dly .txAckSample, .sample .sda]

theorem logBefore_byteTransfer (hp : s.ph = .byteTransfer) :
    logBefore s = ⟨startOps ++ sentOps s.tb s.k.toNat ++ (bitOrder.take (7 - s.i.toNat)).flatMap (txBitOps s.sh) ++
      (txBitOps s.sh s.i ++ ackSlotOps).take s.u.toNat, List.replicate s.k.toNat false, []⟩ := by
  simp only [logBefore, opsBefore, roundOps, acksBefore, rxsBefore, hp, List.map_take]
  rfl

theorem logBefore_ackOk (hp : s.ph = .ackOk) :
    logBefore s = ⟨startOps ++ sentOps s.tb s.k.toNat ++ txByteOps (Memory.read s.tb s.k.toNat) ++
      ackOkOps.take s.u.toNat, List.replicate (s.k.toNat + 1) false, []⟩ := by
  simp only [logBefore, opsBefore, roundOps, acksBefore, rxsBefore, hp, List.map_take]
  rfl

theorem logBefore_ackFail (hp : s.ph = .ackFail) :
    logBefore s = ⟨startOps ++ sentOps s.tb s.k.toNat ++ txByteOps (Memory.read s.tb s.k.toNat) ++
      ackFailOps.take s.u.toNat, List.replicate s.k.toNat false ++ [true], []⟩ := by
  simp only [logBefore, opsBefore, roundOps, acksBefore, rxsBefore, hp, List.map_take]
  rfl

theorem logBefore_byteReceive (hp : s.ph = .byteReceive) :
    logBefore s = ⟨startOps ++ sentOps s.tb 1 ++ receivedOps s.nreq.toNat s.j.toNat ++
      (bitOrder.take (7 - s.i.toNat)).flatMap (fun _ => rxBitOps) ++
      (rxBitOps ++ rxAckOps (lastByte s)).take s.u.toNat, [false], rxsBefore s⟩ := by
  simp only [logBefore, opsBefore, roundOps, acksBefore, hp, List.map_take]
  rfl

theorem logBefore_stop (hp : s.ph = .stop) :
    logBefore s = ⟨startOps ++ sentOps s.tb (sentCount s) ++ receptionOps s.mode s.nreq.toNat ++
      stopOps.take s.u.toNat, List.replicate (sentCount s) false,
      receptionBits s.mode s.rb s.nreq.toNat⟩ := by
  simp only [logBefore, opsBefore, roundOps, acksBefore, rxsBefore, hp, List.map_take]
  rfl

/-- The bits sampled before the sample of the current bit (R153). -/
theorem rxsBefore_sampling (hp : s.ph = .byteReceive) (hu : s.u ≤ 3) :
    rxsBefore s = rbBits s.rb s.j.toNat ++ (bitOrder.take (7 - s.i.toNat)).map (bitAt s.sh) := by
  have h6 : s.u ≤ 6 := by bv_omega
  simp only [rxsBefore, hp, if_pos h6, if_pos hu]

/-- The bits sampled before the first label of the loop, for the bit that is next (R153). -/
theorem rxsBefore_first (hp : s.ph = .byteReceive) (hu : s.u = 0) :
    rxsBefore s = rbBits s.rb s.j.toNat ++ (bitOrder.take (7 - s.i.toNat)).map (bitAt s.sh) :=
  rxsBefore_sampling hp (by rw [hu]; decide)

/-- The bits sampled after the sample of the current bit (R153). -/
theorem rxsBefore_sampled (hp : s.ph = .byteReceive) (h3 : ¬ s.u ≤ 3) (h6 : s.u ≤ 6) :
    rxsBefore s = rbBits s.rb s.j.toNat ++ (bitOrder.take (8 - s.i.toNat)).map (bitAt s.sh) := by
  simp only [rxsBefore, hp, if_pos h6, if_neg h3]

/-- The bits sampled after the store of the current byte (R155). -/
theorem rxsBefore_stored (hp : s.ph = .byteReceive) (h6 : ¬ s.u ≤ 6) : rxsBefore s = rbBits s.rb (s.j.toNat + 1) := by
  simp only [rxsBefore, hp, if_neg h6]

/-! ### Steps with an end of their own -/

theorem LoopDone.of_zero (h : t.u = 0) : LoopDone t := by
  intro _ hu
  rw [h] at hu
  exact absurd hu (by decide)

/-- `ST4`: the bit loop of the first byte begins (R142). -/
theorem Extends.of_st4 (hl : labelAt s.ph s.u = some .st4) :
    Extends ⟨[.book], [], []⟩ s
      (enterPhase .byteTransfer { s with k := 0, sh := Memory.read s.tb 0, i := 7 }) := by
  obtain ⟨hp, hu⟩ : s.ph = .start ∧ s.u = 4 := labelAt_iff.1 hl
  refine ⟨?_, .of_zero rfl⟩
  rw [logBefore_start hp, logBefore_byteTransfer rfl, hu]
  rfl

/-- The bits before bit `n - 1` are those before bit `n`, and bit `n` (R63). -/
theorem bitOrder_take_pred {n : BitVec 3} (h : n ≠ 0) :
    bitOrder.take (7 - (n - 1).toNat) = bitOrder.take (7 - n.toNat) ++ [n] := by
  revert n
  decide

theorem bitOrder_take_next {n : BitVec 3} : bitOrder.take (8 - n.toNat) = bitOrder.take (7 - n.toNat) ++ [n] := by
  revert n
  decide

/-- The end of a bit that was bit 0: on to the next label (R144, R153). -/
theorem nextBit_zero (hu : s.u = 5) (hi : s.i = 0) : nextBit s = advance s := by
  rw [nextBit_last hi, advance, hu]
  rfl

/-- The end of bit 0 extends the log as any step that goes on to the next label does. -/
theorem Extends.of_last_bit (e : Option (Line × Drive)) (hl : labelAt s.ph s.u = some l) (h5 : l = .tx5 ∨ l = .rx5)
    (hi : s.i = 0) : Extends ⟨[microOp l s], [], []⟩ s (advance (applyEvent e s)) := by
  have hl' : labelAt (applyEvent e s).ph (applyEvent e s).u = some l := by simpa using hl
  have hne : l ≠ .rx3 ∧ l ≠ .rx6 := by rcases h5 with rfl | rfl <;> decide
  refine ⟨?_, fun _ _ => by rcases e with _ | ⟨_ | _, _⟩ <;> exact hi⟩
  rw [logBefore_advance hl' hne.1 hne.2, logBefore_applyEvent, microOp_applyEvent]

/-- `TX5`: one more bit is transmitted (R144). -/
theorem Extends.of_tx5 (hl : labelAt s.ph s.u = some .tx5) : Extends ⟨[.dly .txLow], [], []⟩ s (nextBit s) := by
  obtain ⟨hp, hu⟩ : s.ph = .byteTransfer ∧ s.u = 5 := labelAt_iff.1 hl
  by_cases hi : s.i = 0
  · rw [nextBit_zero hu hi]
    exact .of_last_bit none hl (.inl rfl) hi
  · rw [nextBit_more hi]
    refine ⟨?_, .of_zero rfl⟩
    rw [logBefore_byteTransfer hp, logBefore_byteTransfer (s := jump 0 { s with i := s.i - 1 }) hp, hu]
    simp only [Log.add, jump, bitOrder_take_pred hi, List.flatMap_append, List.append_assoc, List.append_nil]
    rfl

/-- `RX5`: one more bit is received (R153). -/
theorem Extends.of_rx5 (hl : labelAt s.ph s.u = some .rx5) :
    Extends ⟨[.dl .scl], [], []⟩ s (nextBit (driveLow .scl s)) := by
  obtain ⟨hp, hu⟩ : s.ph = .byteReceive ∧ s.u = 5 := labelAt_iff.1 hl
  by_cases hi : s.i = 0
  · rw [nextBit_zero (s := driveLow .scl s) hu hi]
    exact .of_last_bit (some (.scl, .drivenLow)) hl (.inr rfl) hi
  · rw [nextBit_more (s := driveLow .scl s) hi]
    refine ⟨?_, .of_zero rfl⟩
    rw [logBefore_byteReceive hp, logBefore_byteReceive (by exact hp), rxsBefore_first (by exact hp) (by rfl),
      rxsBefore_sampled hp (by rw [hu]; decide) (by rw [hu]; decide), hu]
    simp only [Log.add, jump, driveLow, setDrive_scl_i, bitOrder_take_pred hi, bitOrder_take_next, List.flatMap_append,
      List.append_assoc,
      List.append_nil]
    rfl

/-- `TX9`: the byte is transmitted, and its acknowledgment sampled (R145). -/
theorem Extends.of_tx9 (hi : Inv s) (hl : labelAt s.ph s.u = some .tx9) (hd : LoopDone s) (b : Bool) :
    Extends ⟨[.sample .sda], [b], []⟩ s (takeAckSample b s) := by
  obtain ⟨hp, hu⟩ : s.ph = .byteTransfer ∧ s.u = 9 := labelAt_iff.1 hl
  have hk : s.k.toNat < 33 := (BitVec.lt_def.1 (hi.kBound (by rw [hp]; rfl))).trans_le hi.lenLe
  have hsh : Memory.read s.tb s.k.toNat = s.sh := Option.some.inj ((readTb_eq hk).symm.trans (hi.shCopy hp))
  have h0 : s.i = 0 := hd (.inl hp) (by rw [hu]; decide)
  have hbyte : txByteOps s.sh =
      (bitOrder.take 7).flatMap (txBitOps s.sh) ++ ((txBitOps s.sh 0 ++ ackSlotOps).take 9 ++ [.sample .sda]) := rfl
  cases b <;> refine ⟨?_, .of_zero rfl⟩
  · rw [takeAckSample_ack, logBefore_ackOk rfl, logBefore_byteTransfer hp, hu, h0]
    simp only [Log.add, enterPhase, hsh, hbyte, List.append_assoc, List.replicate_succ']
    rfl
  · rw [takeAckSample_nack, logBefore_ackFail rfl, logBefore_byteTransfer hp, hu, h0]
    simp only [Log.add, raiseAckFail, hsh, hbyte, List.append_assoc]
    rfl

/-- `AK2` of a write before the last byte: the bit loop of the next byte begins (R148). -/
theorem Extends.of_ak2_more (hl : labelAt s.ph s.u = some .ak2) (hlen : s.k.toNat + 1 < s.len.toNat) :
    Extends ⟨[.book], [], []⟩ s
      (enterPhase .byteTransfer { s with k := s.k + 1, sh := Memory.read s.tb (s.k + 1).toNat, i := 7 }) := by
  obtain ⟨hp, hu⟩ : s.ph = .ackOk ∧ s.u = 2 := labelAt_iff.1 hl
  have hk : (s.k + 1).toNat = s.k.toNat + 1 := by bv_omega
  refine ⟨?_, .of_zero rfl⟩
  rw [logBefore_ackOk hp, logBefore_byteTransfer rfl, hu]
  simp only [Log.add, enterPhase, hk, sentOps_succ, List.append_assoc, List.append_nil]
  rfl

/-- The dispatch of an acknowledged byte that is the last: all bytes are transmitted (R148, R149). -/
theorem Extends.of_ak2_stop (hl : labelAt s.ph s.u = some .ak2) (hk : sentCount s = s.k.toNat + 1)
    (hn : s.mode = .r → s.nreq = 0) : Extends ⟨[.book], [], []⟩ s (enterPhase .stop s) := by
  obtain ⟨hp, hu⟩ : s.ph = .ackOk ∧ s.u = 2 := labelAt_iff.1 hl
  have hk' : sentCount (enterPhase .stop s) = s.k.toNat + 1 := hk
  have hnone : receptionOps s.mode s.nreq.toNat = [] ∧ receptionBits s.mode s.rb s.nreq.toNat = [] := by
    cases hm : s.mode with
    | w => exact ⟨rfl, rfl⟩
    | r => rw [hn hm]; exact ⟨rfl, rfl⟩
  refine ⟨?_, .of_zero rfl⟩
  rw [logBefore_ackOk hp, logBefore_stop rfl, hk', hu]
  simp only [Log.add, enterPhase_mode, enterPhase_nreq, enterPhase_tb, enterPhase_rb, hnone, sentOps_succ,
    List.append_assoc, List.append_nil]
  rfl

/-- The dispatch of an acknowledged address byte of a read: the first bit loop begins (R149). -/
theorem Extends.of_ak2_read (hl : labelAt s.ph s.u = some .ak2) (hk : s.k = 0) :
    Extends ⟨[.book], [], []⟩ s (enterPhase .byteReceive { s with j := 0, i := 7 }) := by
  obtain ⟨hp, hu⟩ : s.ph = .ackOk ∧ s.u = 2 := labelAt_iff.1 hl
  refine ⟨?_, .of_zero rfl⟩
  rw [logBefore_ackOk hp, logBefore_byteReceive rfl, hk, hu]
  rfl

/-- The bits of `SH` down to bit `n`, when bit `n` has just been stored (R153). -/
theorem map_bitAt_setBitAt (v : Byte) (n : BitVec 3) (b : Bool) :
    (bitOrder.take (8 - n.toNat)).map (bitAt (setBitAt v n b)) =
      (bitOrder.take (7 - n.toNat)).map (bitAt v) ++ [b] := by
  have hne : ∀ k ∈ bitOrder.take (7 - n.toNat), k ≠ n := by revert n; decide
  rw [bitOrder_take_next, List.map_append, List.map_singleton, bitAt_setBitAt_same]
  exact congrArg (· ++ [b]) (List.map_congr_left fun k hk => bitAt_setBitAt_other v n k b (hne k hk))

/-- `RX3`: the bit sampled goes into `SH` (R153). -/
theorem Extends.of_rx3 (hl : labelAt s.ph s.u = some .rx3) (b : Bool) :
    Extends ⟨[.sample .sda], [], [b]⟩ s (advance { s with sh := setBitAt s.sh s.i b }) := by
  obtain ⟨hp, hu⟩ : s.ph = .byteReceive ∧ s.u = 3 := labelAt_iff.1 hl
  have hu' : s.u + 1 = 4 := by rw [hu]; rfl
  refine ⟨?_, fun _ h6 => absurd (hu' ▸ h6 : (6 : BitVec 5) ≤ 4) (by decide)⟩
  rw [logBefore_byteReceive hp, logBefore_byteReceive (s := advance { s with sh := setBitAt s.sh s.i b }) hp,
    rxsBefore_sampled (s := advance { s with sh := setBitAt s.sh s.i b }) hp (by rw [advance_u, hu']; decide)
      (by rw [advance_u, hu']; decide), rxsBefore_sampling hp (by rw [hu]; decide)]
  simp only [Log.add, advance, map_bitAt_setBitAt, hu, List.append_assoc]
  rfl

/-- `RX6`: the byte received goes into `RB` (R155). -/
theorem Extends.of_rx6 (hl : labelAt s.ph s.u = some .rx6) (hd : LoopDone s) :
    Extends ⟨[.book], [], []⟩ s (advance (writeRb s.j.toNat s.sh s)) := by
  obtain ⟨hp, hu⟩ : s.ph = .byteReceive ∧ s.u = 6 := labelAt_iff.1 hl
  have hu' : s.u + 1 = 7 := by rw [hu]; rfl
  have h0 : s.i = 0 := hd (.inr hp) (by rw [hu]; decide)
  refine ⟨?_, fun _ _ => h0⟩
  rw [logBefore_byteReceive hp, logBefore_byteReceive (s := advance (writeRb s.j.toNat s.sh s)) hp,
    rxsBefore_stored (s := advance (writeRb s.j.toNat s.sh s)) hp (by rw [advance_u, writeRb_u, hu']; decide),
    rxsBefore_sampled hp (by rw [hu]; decide) (by rw [hu]; decide)]
  simp only [Log.add, advance, writeRb, rbBits_succ, rbBits_write, Memory.read_write_same, h0, hu, List.append_assoc,
    List.append_nil]
  rfl

/-- `RX17`: one more byte is received (R154, R155). -/
theorem Extends.of_rx17 (hl : labelAt s.ph s.u = some .rx17) (hd : LoopDone s) (hm : s.mode = .r) (hj : s.j < s.nreq) :
    Extends ⟨[.book], [], []⟩ s (nextReceived s) := by
  obtain ⟨hp, hu⟩ : s.ph = .byteReceive ∧ s.u = 17 := labelAt_iff.1 hl
  have h0 : s.i = 0 := hd (.inr hp) (by rw [hu]; decide)
  have hj1 : (s.j + 1).toNat = s.j.toNat + 1 := by bv_omega
  have hlast : lastByte s = decide (s.j.toNat + 1 = s.nreq.toNat) := Bool.eq_iff_iff.2 (by simpa using lastByte_iff hj)
  have hbyte (x : Bool) : rxByteOps x =
      (bitOrder.take 7).flatMap (fun _ => rxBitOps) ++ ((rxBitOps ++ rxAckOps x).take 17 ++ [.book]) := rfl
  have hnone : bitOrder.take (7 - (7 : BitVec 3).toNat) = [] := rfl
  by_cases hmore : s.j + 1 < s.nreq
  · rw [nextReceived_enter hp hmore]
    refine ⟨?_, .of_zero rfl⟩
    rw [logBefore_byteReceive hp, logBefore_byteReceive rfl, rxsBefore_stored hp (by rw [hu]; decide),
      rxsBefore_first (by rfl) (by rfl)]
    simp only [Log.add, enterPhase, hj1, receivedOps_succ, hbyte, hlast, hu, h0, hnone, List.map_nil, List.append_assoc,
      List.append_nil]
    rfl
  · have hall : s.j.toNat + 1 = s.nreq.toNat := by bv_omega
    have hops : rxOps s.nreq.toNat = receivedOps s.nreq.toNat s.j.toNat ++ rxByteOps (lastByte s) := by
      rw [hlast, ← receivedOps_succ, hall]
      rfl
    rw [nextReceived_last hmore]
    refine ⟨?_, .of_zero rfl⟩
    rw [logBefore_byteReceive hp, logBefore_stop rfl, rxsBefore_stored hp (by rw [hu]; decide)]
    simp only [Log.add, enterPhase, sentCount, receptionOps, receptionBits, hm, hall, hops, hbyte, hu, h0,
      List.append_assoc, List.append_nil]
    rfl

end Machine
end Sys2Proof
end

section
/-! PROOFS. The log of a transaction along a run of the machine: the record of a running transaction is kept by every
labelled step but `AF0` and `SP6`, which give its two ends; steps of `BUS` and held turns add nothing to it. -/

namespace Sys2Proof
namespace Machine

variable {s₀ s g t u m : State} {l : Label} {b : Bool} {x : Log} {n k : Nat}

/-! ### One labelled step -/

/-- What a completed labelled step adds to the log. -/
def turnLog (l : Label) (s : State) : Log :=
  ⟨[microOp l s], if l = .tx9 then [level s .sda] else [], if l = .rx3 then [level s .sda] else []⟩

theorem turnLog_of_ne (ha : l ≠ .tx9) (hx : l ≠ .rx3) : turnLog l s = ⟨[microOp l s], [], []⟩ := by
  rw [turnLog, if_neg ha, if_neg hx]

/-- The dispatch after an acknowledged byte (R148, R149). -/
theorem Extends.of_ak2 (hi : Inv s) (hl : labelAt s.ph s.u = some .ak2) (h : dispatchAfterAck s = .next t) :
    Extends ⟨[.book], [], []⟩ s t := by
  have htr : transmitting s.ph = true := by rw [(labelAt_iff.1 hl).1]; rfl
  have hk : s.k.toNat < s.len.toNat := BitVec.lt_def.1 (hi.kBound htr)
  cases hm : s.mode with
  | w =>
    by_cases hlen : s.k.toNat + 1 < s.len.toNat
    · rw [dispatchAfterAck_moreBytes hm hlen] at h
      obtain rfl := loadByte_next h
      exact .of_ak2_more hl hlen
    · rw [dispatchAfterAck_lastByte hm hlen] at h
      cases h
      exact .of_ak2_stop hl (by simp only [sentCount, hm]; omega) (by rw [hm]; nofun)
  | r =>
    have hk0 := hi.kRead htr hm
    by_cases hn : s.nreq = 0
    · rw [dispatchAfterAck_readNone hm hn] at h
      cases h
      exact .of_ak2_stop hl (by simp only [sentCount, hm, hk0]; rfl) fun _ => hn
    · rw [dispatchAfterAck_read hm hn] at h
      cases h
      exact .of_ak2_read hl hk0

/-- A completed labelled step that does not end the transaction extends the log by what it completes and samples. -/
theorem runLabel_extends (hi : Inv s) (hl : labelAt s.ph s.u = some l) (hd : LoopDone s) (h : runLabel l s = .next t)
    (hm : (microOp l s).run s = .done m b) (hf : l ≠ .af0) (h6 : l ≠ .sp6) : Extends (turnLog l s) s t := by
  have hdr := hi.drivesAt hl
  have hc : conclude l b m = .next t := by rwa [runLabel_of_done rfl hm] at h
  rw [run_done_eq hm] at hc
  rcases conclude_advance_or l with ⟨ha, -⟩ | rfl | rfl | rfl | rfl | rfl | rfl | rfl | rfl | rfl | rfl
  · rw [ha] at hc
    cases hc
    obtain ⟨-, h9, h3, -⟩ := ne_of_conclude_advance ha
    rw [turnLog_of_ne h9 h3]
    exact .of_advance _ ha hl hd
  · obtain rfl := loadByte_next (n := 0) hc
    exact .of_st4 hl
  · cases hc
    exact .of_tx5 hl
  · rw [runLabel_tx9 s (hdr.sda _ rfl)] at h
    cases h
    exact .of_tx9 hi hl hd _
  · exact .of_ak2 hi hl hc
  · exact absurd rfl hf
  · rw [runLabel_rx3 s (hdr.sda _ rfl)] at h
    cases h
    exact .of_rx3 hl _
  · cases hc
    exact .of_rx5 hl
  · obtain ⟨-, rfl⟩ := storeReceived_next hc
    exact .of_rx6 hl hd
  · cases hc
    obtain ⟨hmode, hj⟩ := hi.jBound (labelAt_iff.1 hl).1
    exact .of_rx17 hl hd hmode hj
  · exact absurd rfl h6

/-! ### The transaction -/

/-- What a running transaction keeps of the state that it began in; a write keeps `RB` too (R34, R76). -/
structure Kept (s₀ s : State) : Prop where
  tb : s.tb = s₀.tb
  len : s.len = s₀.len
  mode : s.mode = s₀.mode
  nreq : s.nreq = s₀.nreq
  rxcnt : s.rxcnt = s₀.rxcnt
  rb : s₀.mode = .w → s.rb = s₀.rb

/-- The transaction that began in `s₀` runs in `s`, and its log is the one that goes with the position. -/
structure Recorded (s₀ s : State) (x : Log) : Prop where
  kept : Kept s₀ s
  loop : LoopDone s
  log : x = logBefore s

/-- The transaction that began in `s₀` has reached STOP and ended in `t` (R158, R190, R193). -/
structure Stopped (s₀ t : State) (x : Log) : Prop where
  log : x = ⟨startOps ++ sentOps s₀.tb (sentCount s₀) ++ receptionOps s₀.mode s₀.nreq.toNat ++ stopOps,
    List.replicate (sentCount s₀) false, receptionBits s₀.mode t.rb s₀.nreq.toNat⟩
  rsp : t.rsp = some (responseWord false true (if s₀.mode = .r then s₀.nreq else 0x00))
  rxcnt : t.rxcnt = if s₀.mode = .r then s₀.nreq else s₀.rxcnt
  lastok : t.lastok = true

/-- The transaction that began in `s₀` has ended in `t` because byte `k` was not acknowledged (R152, R190, R193). -/
structure Aborted (k : Nat) (s₀ t : State) (x : Log) : Prop where
  within : k < sentCount s₀
  log : x = ⟨startOps ++ sentOps s₀.tb k ++ txByteOps (Memory.read s₀.tb k) ++ ackFailOps,
    List.replicate k false ++ [true], []⟩
  rsp : t.rsp = some 0x0000
  rxcnt : t.rxcnt = if s₀.mode = .r then 0 else s₀.rxcnt
  lastok : t.lastok = false

/-- The transaction that began in `s₀` has ended in `t`. -/
structure Ended (s₀ t : State) (x : Log) : Prop where
  idle : t.ph = .idle
  len : t.len = 0
  rb : s₀.mode = .w → t.rb = s₀.rb
  outcome : Stopped s₀ t x ∨ ∃ k, Aborted k s₀ t x

/-- What the log of a transaction tells, while it runs and at its end. -/
inductive History (s₀ s : State) (x : Log) : Prop
  | running (hp : s.ph ≠ .idle) (h : Recorded s₀ s x)
  | ended (h : Ended s₀ s x)

theorem Kept.of_conclude (h : Kept s₀ s) (hi : Inv s) (hl : labelAt s.ph s.u = some l)
    (hc : conclude l b (applyEvent (microOp l s).lineEvent s) = .next t) (hp : t.ph ≠ .idle) : Kept s₀ t := by
  obtain ⟨htb, hlen, hmode, hnreq, hrxcnt, hrb⟩ := h
  obtain hf | rfl | rfl | ⟨rfl, rfl⟩ := conclude_frame hc
  · rw [hf]
    rcases (microOp l s).lineEvent with _ | ⟨_ | _, _⟩ <;> exact ⟨htb, hlen, hmode, hnreq, hrxcnt, hrb⟩
  · exact absurd rfl hp
  · exact absurd rfl hp
  · have hr : s₀.mode = .r := hmode ▸ (hi.jBound (labelAt_iff.1 hl).1).1
    exact ⟨htb, hlen, hmode, hnreq, hrxcnt, fun hw => by rw [hr] at hw; cases hw⟩

/-- `AF0`: the transaction ends without STOP (R152). -/
theorem Ended.of_af0 (hi : Inv s) (hl : labelAt s.ph s.u = some .af0) (h : Recorded s₀ s x) :
    Ended s₀ (takeAckFail s) (x.add ⟨[.book], [], []⟩) := by
  obtain ⟨hp, hu⟩ : s.ph = .ackFail ∧ s.u = 0 := labelAt_iff.1 hl
  obtain ⟨htb, hlen, hmode, hnreq, hrxcnt, hrb⟩ := h.kept
  refine ⟨rfl, rfl, hrb, .inr ⟨s.k.toNat, ?_, ?_, rfl, ?_, rfl⟩⟩
  · have htr : transmitting s.ph = true := by rw [hp]; rfl
    have hk : s.k.toNat < s.len.toNat := BitVec.lt_def.1 (hi.kBound htr)
    have hcount : sentCount s₀ = sentCount s := by simp only [sentCount, hmode, hlen]
    rw [hcount, sentCount]
    cases hm : s.mode with
    | w => exact hk
    | r => rw [hi.kRead htr hm]; exact Nat.one_pos
  · rw [h.log, logBefore_ackFail hp, htb, hu]
    simp only [Log.add, List.append_assoc]
    rfl
  · rw [← hmode, ← hrxcnt]
    rfl

/-- `SP6`: the transaction ends after STOP (R158). -/
theorem Ended.of_sp6 (hl : labelAt s.ph s.u = some .sp6) (h : Recorded s₀ s x) :
    Ended s₀ (takeStopDone s) (x.add ⟨[.book], [], []⟩) := by
  obtain ⟨hp, hu⟩ : s.ph = .stop ∧ s.u = 6 := labelAt_iff.1 hl
  obtain ⟨htb, hlen, hmode, hnreq, hrxcnt, hrb⟩ := h.kept
  have hsent : sentCount s = sentCount s₀ := by simp only [sentCount, hmode, hlen]
  refine ⟨rfl, rfl, hrb, .inl ⟨?_, ?_, ?_, rfl⟩⟩
  · rw [h.log, logBefore_stop hp, htb, hsent, hmode, hnreq, hu]
    simp only [Log.add, List.append_assoc, List.append_nil]
    rfl
  · rw [← hmode, ← hnreq]
    rfl
  · rw [← hmode, ← hnreq, ← hrxcnt]
    rfl

theorem ops_logBefore_idle (hp : s.ph = .idle) : (logBefore s).ops = [] := by
  simp [logBefore, opsBefore, roundOps, stepList, hp]

/-- A completed labelled step, in the transaction that began in `s₀`. -/
theorem Recorded.turn (h : Recorded s₀ s x) (hi : Inv s) (hl : labelAt s.ph s.u = some l)
    (hrun : runLabel l s = .next t) (hm : (microOp l s).run s = .done m b) : History s₀ t (x.add (turnLog l s)) := by
  by_cases hf : l = .af0
  · subst hf
    cases hrun
    exact .ended (.of_af0 hi hl h)
  by_cases h6 : l = .sp6
  · subst h6
    cases hrun
    exact .ended (.of_sp6 hl h)
  have he := runLabel_extends hi hl h.loop hrun hm hf h6
  have hc : conclude l b m = .next t := by rwa [runLabel_of_done rfl hm] at hrun
  rw [run_done_eq hm] at hc
  have hp : t.ph ≠ .idle := by
    intro hp
    have hops := congrArg Log.ops he.log
    rw [ops_logBefore_idle hp] at hops
    simp [Log.add, turnLog] at hops
  exact .running hp ⟨h.kept.of_conclude hi hl hc hp, he.loop, by rw [h.log, he.log]⟩

/-! ### Steps and runs of the machine -/

/-- What a step of the machine completes and samples. -/
def stepLog (s : State) : Log :=
  ⟨(completedOp s).toList, atLabel .tx9 (level · .sda) s, atLabel .rx3 (level · .sda) s⟩

/-- What a run of the machine completes and samples. -/
def runLog (n : Nat) (s : State) : Log := ⟨opTrace n s, ackSamples n s, rxSamples n s⟩

theorem runLog_succ (n : Nat) (h : step s = .next t) : runLog (n + 1) s = (stepLog s).add (runLog n t) := by
  rw [runLog, opTrace_succ n h, ackSamples, along_succ _ n h, rxSamples, along_succ _ n h]
  rfl

/-- A step of `BUS` completes and samples nothing. -/
theorem stepLog_none (h : grant s = none) : stepLog s = ⟨[], [], []⟩ := by
  rw [stepLog, completedOp_none h, atLabel_none _ _ h, atLabel_none _ _ h]
  rfl

/-- A turn that completes its labelled step. -/
theorem stepLog_done (hg : grant s = some g) (hl : labelAt g.ph g.u = some l) (hm : (microOp l g).run g = .done m b) :
    stepLog s = turnLog l g := by
  simp [stepLog, completedOp, hg, currentOp, hl, hm, atLabel, turnLog]

/-- A turn that is held (R126). -/
theorem stepLog_held (hg : grant s = some g) (hl : labelAt g.ph g.u = some l) (hm : (microOp l g).run g = .held) :
    stepLog s = ⟨[], [], []⟩ := by
  obtain ⟨hw, -⟩ := heldOnlyInReception.1 g l hl hm
  rcases hw with rfl | rfl <;> simp [stepLog, completedOp, hg, currentOp, hl, hm, atLabel]

/-- The record depends on the block alone. -/
theorem Recorded.congr (h : Recorded s₀ s x) (hb : t.toBlock = s.toBlock) : Recorded s₀ t x := by
  cases s; cases t
  cases hb
  obtain ⟨⟨htb, hlen, hmode, hnreq, hrxcnt, hrb⟩, hloop, hlog⟩ := h
  exact ⟨⟨htb, hlen, hmode, hnreq, hrxcnt, hrb⟩, hloop, hlog⟩

/-- One step of the machine without `rst`, in the transaction that began in `s₀`. -/
theorem Recorded.step (h : Recorded s₀ s x) (hi : Inv s) (hp : s.ph ≠ .idle) (hr : .rst ∉ s.sched)
    (hs : Machine.step s = .next u) : History s₀ u (x.add (stepLog s)) := by
  obtain ⟨a, b, es, he, rfl⟩ | ⟨es, he, -⟩ | ⟨g, hg, hb⟩ := step_cases hs
  · rw [stepLog_none (by simp [grant, he]), Log.add_empty]
    exact .running hp (h.congr rfl)
  · exact absurd (he ▸ List.mem_cons_self) hr
  · have hf := grant_frame hg
    have hgb : g.toBlock = s.toBlock := by rw [hf]
    have hgi : Inv g := by rw [hf]; exact hi.congr rfl rfl
    have hgr := h.congr hgb
    obtain ⟨hidle, -⟩ | ⟨hgp, l, hl, hrun⟩ := blockStep_cases hb
    · exact absurd (hgb ▸ hidle) hp
    · obtain ⟨m, b, hm, -⟩ | ⟨hheld, rfl⟩ := runLabel_cases hrun
      · rw [stepLog_done hg hl hm]
        exact hgr.turn hgi hl hrun hm
      · rw [stepLog_held hg hl hheld, Log.add_empty]
        exact .running hgp hgr

/-- A step without `rst` in a transaction leaves a schedule without `rst`. -/
theorem step_sched (hp : s.ph ≠ .idle) (hr : .rst ∉ s.sched) (hs : step s = .next u) : .rst ∉ u.sched := by
  obtain ⟨a, b, es, he, rfl⟩ | ⟨es, he, -⟩ | ⟨g, hg, hb⟩ := step_cases hs
  · exact fun hmem => hr (he ▸ List.mem_cons_of_mem _ hmem)
  · exact absurd (he ▸ List.mem_cons_self) hr
  · have hf := grant_frame hg
    obtain ⟨hidle, -⟩ | ⟨-, l, -, hrun⟩ := blockStep_cases hb
    · rw [hf] at hidle
      exact absurd hidle hp
    · rw [runLabel_sched hrun, hf]
      exact fun hmem => hr (List.mem_of_mem_tail hmem)

/-- `n` steps from `s` to `t`, with a transaction running before each. -/
structure BusyRun (n : Nat) (s t : State) : Prop where
  ran : runSteps n s = .next t
  busy : ∀ m u, m < n → runSteps m s = .next u → u.ph ≠ .idle

theorem BusyRun.nil (s : State) : BusyRun 0 s s := ⟨rfl, fun _ _ h => absurd h (Nat.not_lt_zero _)⟩

theorem BusyRun.head (h : BusyRun (n + 1) s t) : s.ph ≠ .idle := h.busy 0 s (Nat.succ_pos n) rfl

theorem BusyRun.tail (hs : Machine.step s = .next u) (h : BusyRun (n + 1) s t) : BusyRun n u t :=
  ⟨(runSteps_succ n hs).symm.trans h.ran,
    fun m v hm hv => h.busy (m + 1) v (Nat.succ_lt_succ hm) ((runSteps_succ m hs).trans hv)⟩

theorem BusyRun.step (hp : s.ph ≠ .idle) (hs : Machine.step s = .next u) (h : BusyRun n u t) : BusyRun (n + 1) s t := by
  refine ⟨(runSteps_succ n hs).trans h.ran, fun m v hm hv => ?_⟩
  cases m with
  | zero => cases hv; exact hp
  | succ m => exact h.busy m v (Nat.lt_of_succ_lt_succ hm) ((runSteps_succ m hs).symm.trans hv)

/-- The record along a run of the machine without `rst`, by induction on its steps. -/
theorem Recorded.run (h : Recorded s₀ s x) (hi : Inv s) (hp : s.ph ≠ .idle) (hr : .rst ∉ s.sched)
    (hrun : BusyRun n s t) : Inv t ∧ .rst ∉ t.sched ∧ History s₀ t (x.add (runLog n s)) := by
  induction n generalizing s x with
  | zero =>
    obtain rfl : s = t := Host.Outcome.next.inj hrun.ran
    rw [show runLog 0 s = ⟨[], [], []⟩ from rfl, Log.add_empty]
    exact ⟨hi, hr, .running hp h⟩
  | succ n ih =>
    obtain ⟨u, hu⟩ := noFaultAndNoRefusal s hi
    have hui := everyStepKeepsTheInvariant s u hi hu
    have hur := step_sched hp hr hu
    have htail := hrun.tail hu
    rw [runLog_succ n hu, ← Log.add_assoc]
    cases h.step hi hp hr hu with
    | running hup hrec => exact ih hrec hui hup hur htail
    | ended hend =>
      cases n with
      | zero =>
        obtain rfl : u = t := Host.Outcome.next.inj htail.ran
        rw [show runLog 0 u = ⟨[], [], []⟩ from rfl, Log.add_empty]
        exact ⟨hui, hur, .ended hend⟩
      | succ n => exact absurd hend.idle htail.head

end Machine
end Sys2Proof
end

section
/-! PROOFS. A transaction comes to its end or to a reception, whatever `BUS` does: outside byte reception every turn of
the block's agent makes the log longer, and the log is bounded there. -/

namespace Sys2Proof
namespace Machine

variable {s₀ s g t u m : State} {l : Label} {b : Bool} {x : Log} {n k : Nat}

/-! ### A transaction ends, or comes to a reception -/

theorem length_sentOps (tb : Memory) (n : Nat) : (sentOps tb n).length = 55 * n := by
  induction n with
  | zero => rfl
  | succ n ih =>
    have hbyte : (txByteOps (Memory.read tb n) ++ ackOkOps).length = 55 := rfl
    rw [sentOps_succ, List.length_append, ih, hbyte]
    omega

theorem length_receivedOps (n j : Nat) : (receivedOps n j).length = 60 * j := by
  induction j with
  | zero => rfl
  | succ j ih =>
    have hbyte (x : Bool) : (rxByteOps x).length = 60 := by cases x <;> rfl
    rw [receivedOps_succ, List.length_append, ih, hbyte]
    omega

theorem length_receptionOps_le (x : XferMode) (c : BitVec 8) : (receptionOps x c.toNat).length ≤ 60 * 255 := by
  cases x with
  | w => exact Nat.zero_le _
  | r =>
    have hlen : (rxOps c.toNat).length = 60 * c.toNat := length_receivedOps _ _
    have hc := c.isLt
    exact hlen.trans_le (by omega)

/-- The length that the log does not reach outside byte reception. -/
def logBound : Nat := 20000

theorem length_opsBefore_lt (hi : Inv s) (hp : s.ph ≠ .byteReceive) : (opsBefore s).length < logBound := by
  have hlist : (((stepList s.ph).take s.u.toNat).map fun l => microOp l s).length ≤ 18 := by
    rw [List.length_map]
    exact (List.length_take_le' _ _).trans (by cases s.ph <;> decide)
  have hround : (roundOps s).length ≤ 17000 + 55 * 33 := by
    have hlen : s.len.toNat ≤ 33 := hi.lenLe
    have hk : transmitting s.ph = true → s.k.toNat < s.len.toNat := fun h => BitVec.lt_def.1 (hi.kBound h)
    have hbits : ((bitOrder.take (7 - s.i.toNat)).flatMap (txBitOps s.sh)).length ≤ 48 :=
      ((List.take_sublist _ _).flatMap _).length_le
    have hsent : sentCount s ≤ 33 := by unfold sentCount; cases s.mode <;> simp [hlen]
    have hrx := length_receptionOps_le s.mode s.nreq
    cases hph : s.ph <;> simp only [roundOps, hph, List.length_append, length_sentOps]
    case byteReceive => exact absurd hph hp
    case idle | start => exact Nat.zero_le _
    case byteTransfer =>
      have := hk (by rw [hph]; rfl)
      have h5 : startOps.length = 5 := rfl
      omega
    case ackOk | ackFail =>
      have := hk (by rw [hph]; rfl)
      have h5 : startOps.length = 5 := rfl
      have h52 : (txByteOps (Memory.read s.tb s.k.toNat)).length = 52 := rfl
      omega
    case stop =>
      have h5 : startOps.length = 5 := rfl
      omega
  rw [opsBefore, List.length_append, logBound]
  omega

/-- Outside byte reception a step of the machine without `rst` takes an event of `BUS` off the schedule, or completes a
micro-operation. -/
theorem step_progress (hp : s.ph ≠ .idle) (hrx : s.ph ≠ .byteReceive) (hr : .rst ∉ s.sched)
    (hs : Machine.step s = .next u) :
    ((stepLog s).ops = [] ∧ u.sched.length < s.sched.length) ∨ (stepLog s).ops.length = 1 := by
  obtain ⟨a, b, es, he, rfl⟩ | ⟨es, he, -⟩ | ⟨g, hg, hb⟩ := step_cases hs
  · refine .inl ⟨by rw [stepLog_none (by simp [grant, he])], ?_⟩
    rw [he]
    exact Nat.lt_succ_self _
  · exact absurd (he ▸ List.mem_cons_self) hr
  · have hgp : g.ph = s.ph := by rw [grant_frame hg]
    obtain ⟨hidle, -⟩ | ⟨-, l, hl, hrun⟩ := blockStep_cases hb
    · exact absurd (hgp ▸ hidle) hp
    · obtain ⟨m, b, hm, -⟩ | ⟨hheld, -⟩ := runLabel_cases hrun
      · exact .inr (by rw [stepLog_done hg hl hm]; rfl)
      · have hlp := (labelAt_iff.1 hl).1
        obtain ⟨rfl | rfl, -⟩ := heldOnlyInReception.1 g l hl hheld <;> exact absurd (hgp ▸ hlp) hrx

/-- A transaction comes to its end or to a reception, under every schedule without `rst`: outside reception no turn is
held, and the log cannot grow for ever. -/
theorem Recorded.exists_end {s : State} {x : Log} (h : Recorded s₀ s x) (hi : Inv s) (hr : .rst ∉ s.sched) :
    ∃ n t, BusyRun n s t ∧ (t.ph = .idle ∨ t.ph = .byteReceive) := by
  by_cases hp : s.ph = .idle
  · exact ⟨0, s, .nil s, .inl hp⟩
  by_cases hrx : s.ph = .byteReceive
  · exact ⟨0, s, .nil s, .inr hrx⟩
  obtain ⟨u, hu⟩ := noFaultAndNoRefusal s hi
  cases h.step hi hp hr hu with
  | ended hend => exact ⟨1, u, .step hp hu (.nil u), .inl hend.idle⟩
  | running hup hrec =>
    have hgrow : opsBefore u = opsBefore s ++ (stepLog s).ops := by
      have hlog := congrArg Log.ops hrec.log
      rw [h.log] at hlog
      exact hlog.symm
    have hbound := length_opsBefore_lt hi hrx
    have hprog := step_progress hp hrx hr hu
    obtain ⟨n, t, hrun, ht⟩ := hrec.exists_end (everyStepKeepsTheInvariant s u hi hu) (step_sched hp hr hu)
    exact ⟨n + 1, t, hrun.step hp hu, ht⟩
termination_by (logBound - (opsBefore s).length, s.sched.length)
decreasing_by
  rw [hgrow, List.length_append, Prod.lex_def]
  obtain ⟨hops, hsched⟩ | hops := hprog
  · exact .inr ⟨by rw [hops]; rfl, hsched⟩
  · exact .inl (by rw [hops]; omega)

end Machine
end Sys2Proof
end

section
/-! PROOFS. The ends of whole transactions (R190, R193). A write ends in one of two ways, and what `BUS` does at the
steps `TX9` decides which: two runs from one state find the same pulls there. -/

namespace Sys2Proof
namespace Machine

variable {s₀ s g t u m : State} {l : Label} {b : Bool} {x : Log} {n k : Nat}

/-! ### The acknowledgments decide -/

theorem along_prefix_succ {α : Type} (f : State → List α) (n : Nat) (s : State) :
    along f n s <+: along f (n + 1) s := by
  induction n generalizing s with
  | zero => exact List.nil_prefix
  | succ n ih =>
    cases hs : step s with
    | next t =>
      rw [along_succ f n hs, along_succ f (n + 1) hs]
      exact (List.prefix_append_right_inj _).2 (ih t)
    | fault _ => simp [along, hs]
    | refused _ => simp [along, hs]

/-- A longer run collects what a shorter one does, and more. -/
theorem along_prefix {α : Type} (f : State → List α) {m n : Nat} (h : m ≤ n) (s : State) :
    along f m s <+: along f n s := by
  induction h with
  | refl => exact List.prefix_rfl
  | step _ ih => exact ih.trans (along_prefix_succ f _ s)

/-- Two runs from one state find the same pull at the same `TX9`. -/
theorem ackPulls_unique {m n : Nat} {a b : Bool} (ha : (ackPulls m s)[k]? = some a) (hb : (ackPulls n s)[k]? = some b) :
    a = b := by
  have hlong {j : Nat} {c : Bool} (hj : j ≤ max m n) (hc : (ackPulls j s)[k]? = some c) :
      (ackPulls (max m n) s)[k]? = some c := by
    obtain ⟨rest, hrest⟩ := along_prefix (atLabel .tx9 (·.extSda)) hj s
    rw [ackPulls, ← hrest]
    exact (List.getElem?_append_left (List.getElem?_eq_some_iff.1 hc).1).trans hc
  exact Option.some.inj ((hlong (le_max_left _ _) ha).symm.trans (hlong (le_max_right _ _) hb))

/-- `SDA` is released at `TX9`, so that the pulls there are the samples, negated (R145, R160). -/
theorem atLabel_tx9_pull (hi : Inv s) :
    atLabel .tx9 (·.extSda) s = (atLabel .tx9 (level · .sda) s).map not := by
  cases hg : grant s with
  | none => rw [atLabel_none _ _ hg, atLabel_none _ _ hg]; rfl
  | some g =>
    have hgi : Inv g := by rw [grant_frame hg]; exact hi.congr rfl rfl
    rw [atLabel_turn _ _ hg, atLabel_turn _ _ hg]
    by_cases hl : labelAt g.ph g.u = some .tx9
    · rw [if_pos hl, if_pos hl, level_of_released (x := .sda) (hgi.drvSda_at hl rfl)]
      simp
    · rw [if_neg hl, if_neg hl]; rfl

theorem ackPulls_eq (hi : Inv s) (n : Nat) : ackPulls n s = (ackSamples n s).map not := by
  induction n generalizing s with
  | zero => rfl
  | succ n ih =>
    obtain ⟨u, hu⟩ := noFaultAndNoRefusal s hi
    have hui := ih (everyStepKeepsTheInvariant s u hi hu)
    rw [ackSamples_succ n hu, List.map_append, ← atLabel_tx9_pull hi, ← hui]
    exact along_succ _ n hu

/-- In a transaction that reached STOP another participant held `SDA` low at every `TX9`. -/
theorem Stopped.pull (h : Stopped s t (runLog n s)) (hi : Inv s) (hk : k < sentCount s) :
    (ackPulls n s)[k]? = some true := by
  have hacks : ackSamples n s = List.replicate (sentCount s) false := congrArg Log.acks h.log
  rw [ackPulls_eq hi, hacks]
  simp [hk]

/-- In a transaction aborted at byte `k` nobody held `SDA` at the `TX9` of that byte. -/
theorem Aborted.pull (h : Aborted k s t (runLog n s)) (hi : Inv s) : (ackPulls n s)[k]? = some false := by
  have hacks : ackSamples n s = List.replicate k false ++ [true] := congrArg Log.acks h.log
  rw [ackPulls_eq hi, hacks]
  simp

/-- And another participant held it at those of the bytes before. -/
theorem Aborted.pull_before {j : Nat} (h : Aborted k s t (runLog n s)) (hi : Inv s) (hj : j < k) :
    (ackPulls n s)[j]? = some true := by
  have hacks : ackSamples n s = List.replicate k false ++ [true] := congrArg Log.acks h.log
  rw [ackPulls_eq hi, hacks]
  simp [hj, List.getElem?_append_left]

/-! ### Writes (R190) -/

theorem Recorded.start (hp : s.ph = .start) (hu : s.u = 0) : Recorded s s ⟨[], [], []⟩ := by
  refine ⟨⟨rfl, rfl, rfl, rfl, rfl, fun _ => rfl⟩, .of_zero hu, ?_⟩
  rw [logBefore_start hp, hu]
  rfl

theorem BusyRun.transactionEnd (h : BusyRun n s t) (ht : t.ph = .idle) : TransactionEnd n s t := ⟨h.ran, ht, h.busy⟩

/-- A transaction from `START` without `rst`, up to any point of it. -/
theorem history_of_start (hi : Inv s) (hp : s.ph = .start) (hu : s.u = 0) (hr : .rst ∉ s.sched) (hrun : BusyRun n s t) :
    Inv t ∧ History s t (runLog n s) := by
  obtain ⟨hti, -, hh⟩ := (Recorded.start hp hu).run hi (by rw [hp]; nofun) hr hrun
  exact ⟨hti, hh⟩

theorem History.ended_of_idle (h : History s₀ t x) (ht : t.ph = .idle) : Ended s₀ t x := by
  cases h with
  | running hp _ => exact absurd ht hp
  | ended h => exact h

/-- A write ends (R190). -/
theorem exists_end_of_write (hi : Inv s) (hp : s.ph = .start) (hu : s.u = 0) (hm : s.mode = .w) (hr : .rst ∉ s.sched) :
    ∃ n t, TransactionEnd n s t ∧ Inv t ∧ Ended s t (runLog n s) := by
  obtain ⟨n, t, hrun, ht⟩ := (Recorded.start hp hu).exists_end hi hr
  obtain ⟨hti, hh⟩ := history_of_start hi hp hu hr hrun
  have hidle : t.ph = .idle := by
    cases hh with
    | ended h => exact h.idle
    | running _ h =>
      refine ht.resolve_right fun hrx => ?_
      have hmode := h.kept.mode.trans hm
      rw [(hti.jBound hrx).1] at hmode
      cases hmode
  exact ⟨n, t, hrun.transactionEnd hidle, hti, hh.ended_of_idle hidle⟩

/-- A write that reached STOP: its micro-operations and its results. -/
theorem Stopped.of_write (h : Stopped s t (runLog n s)) (hm : s.mode = .w) :
    ackSamples n s = List.replicate s.len.toNat false ∧
      opTrace n s = startOps ++ (tbBytes s s.len.toNat).flatMap (fun b => txByteOps b ++ ackOkOps) ++ stopOps ∧
      t.rsp = some 0x0100 ∧ t.lastok = true := by
  have hcount : sentCount s = s.len.toNat := by rw [sentCount, hm]
  obtain ⟨hlog, hrsp, -, hok⟩ := h
  rw [hcount, hm] at hlog
  refine ⟨congrArg Log.acks hlog, (congrArg Log.ops hlog).trans ?_, ?_, hok⟩
  · simp only [receptionOps, List.append_nil]
    rfl
  · rw [hrsp, hm]
    exact congrArg some responseWord_done

/-- Settles O56: the engine's log at the end of a write, which always comes. -/
theorem writeOutcome : Obligations.WriteOutcome := by
  intro s hi hp hu hm hr
  obtain ⟨n, t, hend, hti, he⟩ := exists_end_of_write hi hp hu hm hr
  obtain ⟨hscl, hsda⟩ := hti.released_idle he.idle
  have hcount : sentCount s = s.len.toNat := by rw [sentCount, hm]
  have hkept {c : BitVec 8} (h : t.rxcnt = if s.mode = .r then c else s.rxcnt) : t.rxcnt = s.rxcnt := by
    rw [h, hm]
    rfl
  refine ⟨n, t, hend, he.len, hscl, hsda, he.rb hm, ?_⟩
  obtain hs | ⟨k, ha⟩ := he.outcome
  · exact ⟨hkept hs.rxcnt, .inl (hs.of_write hm)⟩
  · exact ⟨hkept ha.rxcnt, .inr ⟨k, hcount ▸ ha.within, congrArg Log.acks ha.log, congrArg Log.ops ha.log, ha.rsp,
      ha.lastok⟩⟩

/-- Settles O57: a byte that is not acknowledged would be one at whose `TX9` nobody holds `SDA`. -/
theorem acknowledgedWriteSucceeds : Obligations.AcknowledgedWriteSucceeds := by
  intro s n hi hp hu hm hr hpulls
  obtain ⟨m, t, hend, hti, he⟩ := exists_end_of_write hi hp hu hm hr
  obtain ⟨hscl, hsda⟩ := hti.released_idle he.idle
  have hcount : sentCount s = s.len.toNat := by rw [sentCount, hm]
  obtain hs | ⟨k, ha⟩ := he.outcome
  · obtain ⟨-, hops, hrsp, hok⟩ := hs.of_write hm
    exact ⟨m, t, hend, hops, hrsp, hok, he.len, hscl, hsda⟩
  · have hk : k < s.len.toNat := hcount ▸ ha.within
    have hpull : (ackPulls n s)[k]? = some true := by
      rw [← List.getElem?_take_of_lt hk, hpulls]
      simp [hk]
    exact absurd (ackPulls_unique (ha.pull hi) hpull) (by decide)

/-- Settles O58: the pulls at the first `k + 1` steps `TX9` leave one of the ends of a write. -/
theorem unacknowledgedByteAborts : Obligations.UnacknowledgedByteAborts := by
  intro s n k hi hp hu hm hr hk hpulls
  obtain ⟨m, t, hend, hti, he⟩ := exists_end_of_write hi hp hu hm hr
  obtain ⟨hscl, hsda⟩ := hti.released_idle he.idle
  have hcount : sentCount s = s.len.toNat := by rw [sentCount, hm]
  have hnack : (ackPulls n s)[k]? = some false := by
    rw [← List.getElem?_take_of_lt (Nat.lt_succ_self k), hpulls]
    simp
  have hack {j : Nat} (hj : j < k) : (ackPulls n s)[j]? = some true := by
    rw [← List.getElem?_take_of_lt (Nat.lt_succ_of_lt hj), hpulls]
    simp [hj, List.getElem?_append_left]
  obtain hs | ⟨j, ha⟩ := he.outcome
  · exact absurd (ackPulls_unique (hs.pull hi (hcount ▸ hk)) hnack) (by decide)
  · have hjk : j = k := by
      rcases Nat.lt_trichotomy j k with hlt | heq | hgt
      · exact absurd (ackPulls_unique (ha.pull hi) (hack hlt)) (by decide)
      · exact heq
      · exact absurd (ackPulls_unique (ha.pull_before hi hgt) hnack) (by decide)
    subst hjk
    exact ⟨m, t, hend, congrArg Log.ops ha.log, ha.rsp, ha.lastok, he.len, hscl, hsda⟩

/-! ### Reads (R193) -/

/-- Settles O60: at the first `TX9` nobody holds `SDA`, so that the read comes neither to a reception nor to STOP. -/
theorem unacknowledgedReadAborts : Obligations.UnacknowledgedReadAborts := by
  intro s n hi hp hu hm hr hpull
  rw [List.head?_eq_getElem?] at hpull
  have hcount : sentCount s = 1 := by rw [sentCount, hm]
  obtain ⟨m, t, hrun, ht⟩ := (Recorded.start hp hu).exists_end hi hr
  obtain ⟨hti, hh⟩ := history_of_start hi hp hu hr hrun
  have hidle : t.ph = .idle := by
    cases hh with
    | ended h => exact h.idle
    | running _ h =>
      refine ht.resolve_right fun hrx => ?_
      have hacks : ackSamples m s = [false] := by
        have hlog := h.log
        rw [logBefore_byteReceive hrx] at hlog
        exact congrArg Log.acks hlog
      have hpull' : (ackPulls m s)[0]? = some true := by rw [ackPulls_eq hi, hacks]; rfl
      exact absurd (ackPulls_unique hpull' hpull) (by decide)
  obtain ⟨hscl, hsda⟩ := hti.released_idle hidle
  have he := hh.ended_of_idle hidle
  obtain hs | ⟨k, ha⟩ := he.outcome
  · exact absurd (ackPulls_unique (hs.pull hi (hcount ▸ Nat.one_pos)) hpull) (by decide)
  · obtain rfl : k = 0 := Nat.lt_one_iff.1 (hcount ▸ ha.within)
    have hops : opTrace m s = startOps ++ [] ++ txByteOps (Memory.read s.tb 0) ++ ackFailOps := congrArg Log.ops ha.log
    rw [List.append_nil] at hops
    exact ⟨m, t, hrun.transactionEnd hidle, hops, ha.rsp, ha.lastok, by rw [ha.rxcnt, hm]; rfl, he.len, hscl, hsda⟩

/-- A byte is made of its bits, most significant first (R63). -/
theorem byteOfBits_wireBits (v : Byte) : byteOfBits (wireBits v) = v := by
  revert v
  decide +kernel

theorem length_rbBits (rb : Memory) (n : Nat) : (rbBits rb n).length = 8 * n := by
  induction n with
  | zero => rfl
  | succ n ih =>
    have hbyte : (wireBits (Memory.read rb n)).length = 8 := rfl
    rw [rbBits_succ, List.length_append, ih, hbyte]
    omega

/-- The bits of byte `j` stand at index `8 j` of the bits of `RB`. -/
theorem rbBits_drop_take {rb : Memory} {j : Nat} (hj : j < n) :
    ((rbBits rb n).drop (8 * j)).take 8 = wireBits (Memory.read rb j) := by
  induction n with
  | zero => exact absurd hj (Nat.not_lt_zero j)
  | succ n ih =>
    have hbyte : (wireBits (Memory.read rb j)).length = 8 := rfl
    rw [rbBits_succ]
    rcases Nat.lt_succ_iff_lt_or_eq.1 hj with hlt | rfl
    · have hlen := length_rbBits rb n
      rw [List.drop_append_of_le_length (by omega),
        List.take_append_of_le_length (by rw [List.length_drop]; omega), ih hlt]
    · rw [List.drop_left' (length_rbBits rb j), List.take_of_length_le hbyte.le]

/-- A read whose address byte is acknowledged, at its end, on every bus (R193). -/
theorem acknowledgedRead_end (hi : Inv s) (hp : s.ph = .start) (hu : s.u = 0) (hm : s.mode = .r) (hr : .rst ∉ s.sched)
    (hend : TransactionEnd n s t) (hpull : (ackPulls n s).head? = some true) :
    Inv t ∧ t.len = 0 ∧ Stopped s t (runLog n s) := by
  rw [List.head?_eq_getElem?] at hpull
  have hcount : sentCount s = 1 := by rw [sentCount, hm]
  obtain ⟨hti, hh⟩ := history_of_start hi hp hu hr ⟨hend.ran, hend.busy⟩
  have he := hh.ended_of_idle hend.idle
  obtain hs | ⟨k, ha⟩ := he.outcome
  · exact ⟨hti, he.len, hs⟩
  · obtain rfl : k = 0 := Nat.lt_one_iff.1 (hcount ▸ ha.within)
    exact absurd (ackPulls_unique (ha.pull hi) hpull) (by decide)

/-- A read that has reached STOP: its micro-operations, its results, and the bytes in `RB` (R193). -/
theorem Stopped.of_read (h : Stopped s t (runLog n s)) (hm : s.mode = .r) :
    opTrace n s = startOps ++ txByteOps (Memory.read s.tb 0) ++ ackOkOps ++ rxOps s.nreq.toNat ++ stopOps ∧
      t.rsp = some (responseWord false true s.nreq) ∧ t.lastok = true ∧ t.rxcnt = s.nreq ∧
      rxSamples n s = rbBits t.rb s.nreq.toNat := by
  have hcount : sentCount s = 1 := by rw [sentCount, hm]
  have hsent : sentOps s.tb 1 = txByteOps (Memory.read s.tb 0) ++ ackOkOps := sentOps_succ s.tb 0
  obtain ⟨hlog, hrsp, hrxcnt, hok⟩ := h
  rw [hcount, hm, hsent] at hlog
  rw [hm] at hrsp hrxcnt
  exact ⟨(congrArg Log.ops hlog).trans (by simp only [receptionOps, List.append_assoc]), hrsp, hok, hrxcnt,
    congrArg Log.rxs hlog⟩

/-- A byte of `RB` that a read has received is the one that its eight samples make (R153, R155). -/
theorem readRb_of_samples {j c : Nat} {bs : List Bool} (hbs : bs = rbBits t.rb c) (hj : j < c) (hc : c ≤ 255) :
    readRb t j = some (byteOfBits ((bs.drop (8 * j)).take 8)) := by
  rw [readRb_eq (hj.trans_le hc), hbs, rbBits_drop_take hj, byteOfBits_wireBits]

end Machine
end Sys2Proof
end

section
/-! PROOFS. A read under the schedule of R193's second clause: a target that acknowledges the address byte, never
stretches, and presents its bytes. The turns are run symbolically as those of the routines are, with the rest of the
schedule carried along; the bits and the bytes are inductions. -/

namespace Sys2Proof
namespace Machine

variable {s t u : State} {ops : List MicroOp} {es : List Event} {n c : Nat} {d : Byte} {ds : List Byte}

/-! ### START and the address byte -/

/-- START, turn after turn (R142). -/
theorem scheduledStart (hp : s.ph = .start) (hu : s.u = 0) (hs : s.sched = List.replicate 5 .block ++ es) :
    Runs 5 s startOps { s with
      drvScl := .drivenLow, drvSda := .drivenLow, ph := .byteTransfer, u := 0, k := 0, i := 7,
      sh := Memory.read s.tb 0, rsp := none, sched := es } := by
  obtain ⟨r, rfl⟩ := exists_at_position hp hu hs
  have h : Runs 5 { r with ph := .start, u := 0, sched := List.replicate 5 .block ++ es } _ _ :=
    .step .st0 rfl rfl rfl rfl <| .step .st1 rfl rfl rfl rfl <| .step .st2 rfl rfl rfl rfl <|
    .step .st3 rfl rfl rfl rfl <| .step .st4 rfl rfl rfl rfl <| .nil _
  exact h

/-- One transmitted bit, turn after turn (R144). -/
theorem scheduledBit (hp : s.ph = .byteTransfer) (hu : s.u = 0) (hs : s.sched = List.replicate 6 .block ++ es) :
    Runs 6 s (txBitOps s.sh s.i) { s with
      drvScl := .drivenLow, drvSda := driveOfBit (bitAt s.sh s.i), u := if s.i = 0 then 6 else 0,
      i := if s.i = 0 then 0 else s.i - 1, rsp := none, sched := es } := by
  obtain ⟨r, rfl⟩ := exists_at_position hp hu hs
  have h : Runs 6 { r with ph := .byteTransfer, u := 0, sched := List.replicate 6 .block ++ es } _ _ :=
    .step .tx0 rfl rfl rfl rfl <| .step .tx1 rfl rfl rfl rfl <| .step .tx2 rfl rfl rfl rfl <|
    .step .tx3 rfl rfl rfl rfl <| .step .tx4 rfl rfl rfl rfl <|
    .step .tx5 rfl rfl rfl (next_nextBit _) <| .nil _
  exact h

/-- The bits from bit `n` down to bit 0, turn after turn (R144). -/
theorem scheduledBits (hn : s.i.toNat = n) (hp : s.ph = .byteTransfer) (hu : s.u = 0)
    (hs : s.sched = List.replicate (6 * (n + 1)) .block ++ es) :
    Runs (6 * (n + 1)) s ((bitsFrom n).flatMap (txBitOps s.sh)) { s with
      drvScl := .drivenLow, drvSda := driveOfBit (bitAt s.sh 0), u := 6, i := 0, rsp := none, sched := es } := by
  induction n generalizing s with
  | zero =>
    have hi : s.i = 0 := BitVec.eq_of_toNat_eq hn
    have h := scheduledBit hp hu hs
    rw [hi] at h
    exact h
  | succ n ih =>
    have hi : s.i = BitVec.ofNat 3 (n + 1) := by bv_omega
    have h0 : s.i ≠ 0 := by bv_omega
    have hpred : (s.i - 1).toNat = n := by bv_omega
    have hsplit : 6 * (n + 1 + 1) = 6 + 6 * (n + 1) := by omega
    rw [hsplit, List.replicate_add, List.append_assoc] at hs
    have h := scheduledBit hp hu hs
    rw [if_neg h0, if_neg h0] at h
    have hall := h.trans (ih (by exact hpred) (by exact hp) rfl rfl)
    rw [hi] at hall
    rw [hsplit]
    exact hall

/-- The acknowledgment slot with `SDA` held low by another participant, turn after turn (R145, R147). -/
theorem scheduledAck (hp : s.ph = .byteTransfer) (hu : s.u = 6) (hd : s.extSda = true)
    (hs : s.sched = List.replicate 6 .block ++ es) :
    Runs 6 s (ackSlotOps ++ [.dl .scl, .dly .txAckSettle]) { s with
      drvScl := .drivenLow, drvSda := .released, ackf := false, ph := .ackOk, u := 2, rsp := none, sched := es } := by
  obtain ⟨r, rfl⟩ : ∃ r : State, s = { r with
      ph := .byteTransfer, u := 6, extSda := true, sched := List.replicate 6 .block ++ es } :=
    ⟨s, by rw [← hp, ← hu, ← hd, ← hs]⟩
  have h : Runs 6 { r with
      ph := .byteTransfer, u := 6, extSda := true, sched := List.replicate 6 .block ++ es } _ _ :=
    .step .tx6 rfl rfl rfl rfl <| .step .tx7 rfl rfl rfl rfl <| .step .tx8 rfl rfl rfl rfl <|
    .step .tx9 rfl rfl rfl rfl <| .step .ak0 rfl rfl rfl rfl <| .step .ak1 rfl rfl rfl rfl <| .nil _
  exact h

/-- A read that has received `c` bytes and is about to receive the next one, or to make STOP after the last. -/
structure Receiving (c : Nat) (s : State) : Prop where
  mode : s.mode = .r
  extScl : s.extScl = false
  drvScl : s.drvScl = .drivenLow
  drvSda : s.drvSda = .released
  u : s.u = 0
  more : c < s.nreq.toNat → s.ph = .byteReceive ∧ s.j.toNat = c ∧ s.i = 7
  last : c = s.nreq.toNat → s.ph = .stop

/-- The dispatch after the address byte of a read (R149). -/
theorem Runs.dispatch (h : Runs n s ops t) (hp : t.ph = .ackOk) (hu : t.u = 2) (hm : t.mode = .r)
    (hx : t.extScl = false) (hc : t.drvScl = .drivenLow) (hd : t.drvSda = .released) (hs : t.sched = .block :: es) :
    ∃ u, Runs (n + 1) s (ops ++ [.book]) u ∧ Receiving 0 u ∧ u.rb = t.rb ∧ u.nreq = t.nreq ∧ u.sched = es := by
  obtain ⟨r, rfl⟩ := exists_at_position hp hu hs
  by_cases hn : r.nreq = 0
  · have hzero : r.nreq.toNat = 0 := by rw [hn]; rfl
    exact ⟨_, h.trans (.step .ak2 rfl rfl rfl (dispatchAfterAck_readNone hm hn) (.nil _)),
      ⟨hm, hx, hc, hd, rfl, fun h => absurd (hzero ▸ h) (Nat.lt_irrefl 0), fun _ => rfl⟩, rfl, rfl, rfl⟩
  · have hpos : 0 ≠ r.nreq.toNat := by bv_omega
    exact ⟨_, h.trans (.step .ak2 rfl rfl rfl (dispatchAfterAck_read hm hn) (.nil _)),
      ⟨hm, hx, hc, hd, rfl, fun _ => ⟨rfl, rfl, rfl⟩, fun h => absurd h hpos⟩, rfl, rfl, rfl⟩

/-- The address byte of a read, from START to the dispatch, with `SDA` held low by another participant at `TX9`. -/
theorem scheduledAddress (hp : s.ph = .start) (hu : s.u = 0) (hm : s.mode = .r) (hx : s.extScl = false)
    (hd : s.extSda = true) (hs : s.sched = List.replicate 60 .block ++ es) :
    ∃ t, Runs 60 s (startOps ++ txByteOps (Memory.read s.tb 0) ++ ackOkOps) t ∧ Receiving 0 t ∧ t.rb = s.rb ∧
      t.nreq = s.nreq ∧ t.sched = es := by
  have hops : startOps ++ txByteOps (Memory.read s.tb 0) ++ ackOkOps =
      startOps ++ (bitsFrom 7).flatMap (txBitOps (Memory.read s.tb 0)) ++
        (ackSlotOps ++ [.dl .scl, .dly .txAckSettle]) ++ [.book] := by
    simp only [List.append_assoc]
    rfl
  have hstart := scheduledStart (es := List.replicate 55 .block ++ es) hp hu hs
  have hbits := hstart.trans (scheduledBits (n := 7) (es := List.replicate 7 .block ++ es) rfl rfl rfl rfl)
  have hack := hbits.trans (scheduledAck (es := .block :: es) rfl rfl (by exact hd) rfl)
  rw [hops]
  exact hack.dispatch rfl rfl (by exact hm) (by exact hx) rfl rfl rfl

/-! ### Received bytes -/

/-- A step of `BUS`, and what follows it (R26). -/
theorem Runs.bus {a b : Bool} (hs : s.sched = .bus a b :: es)
    (h : Runs n (busStep a b (clearRsp { s with sched := es })) ops t) : Runs (n + 1) s ops t := by
  have hg : grant s = none := by simp [grant, hs]
  have hst : Machine.step s = .next (busStep a b (clearRsp { s with sched := es })) := by simp [Machine.step, turn, hs]
  exact ⟨(runSteps_succ n hst).trans h.ran, by rw [opTrace_succ n hst, completedOp_none hg, h.trace]; rfl⟩

/-- A target that puts bit `n` of `d` on `SDA` and leaves the engine the steps of one bit. -/
def presentBit (d : Byte) (n : BitVec 3) : List Event := .bus false (!bitAt d n) :: List.replicate 6 .block

theorem presentByte_eq (d : Byte) :
    presentByte d = (bitsFrom 7).flatMap (presentBit d) ++ List.replicate 12 .block := rfl

/-- One presented bit: it goes into `SH` (R153). -/
theorem presentedBit (hp : s.ph = .byteReceive) (hu : s.u = 0) (hd : s.drvSda = .released)
    (hs : s.sched = presentBit d s.i ++ es) :
    Runs 7 s rxBitOps { s with
      drvScl := .drivenLow, sh := setBitAt s.sh s.i (bitAt d s.i), i := if s.i = 0 then 0 else s.i - 1,
      u := if s.i = 0 then 6 else 0, rsp := none, sched := es, extScl := false, extSda := !bitAt d s.i } := by
  obtain ⟨r, rfl⟩ : ∃ r : State, s = { r with
      ph := .byteReceive, u := 0, drvSda := .released, sched := presentBit d r.i ++ es } :=
    ⟨s, by rw [← hp, ← hu, ← hd, ← hs]⟩
  have h : Runs 7 { r with ph := .byteReceive, u := 0, drvSda := .released, sched := presentBit d r.i ++ es } _ _ :=
    .bus rfl <| .step .rx0 rfl rfl rfl rfl <| .step .rx1 rfl rfl rfl rfl <| .step .rx2 rfl rfl rfl rfl <|
    .step .rx3 rfl rfl rfl rfl <| .step .rx4 rfl rfl rfl rfl <|
    .step .rx5 rfl rfl rfl (next_nextBit _) <| .nil _
  have hsample : setBitAt r.sh r.i (bitAt d r.i) = setBitAt r.sh r.i (!!bitAt d r.i) := by rw [Bool.not_not]
  rw [hsample]
  exact h

theorem bitAt_setBitAt (v : Byte) (k m : BitVec 3) (b : Bool) :
    bitAt (setBitAt v k b) m = if m = k then b else bitAt v m := by
  split
  next h => rw [h, bitAt_setBitAt_same]
  next h => exact bitAt_setBitAt_other v k m b h

/-- A byte is its bits. -/
theorem eq_of_bitAt_eq {v w : Byte} (h : ∀ m, bitAt v m = bitAt w m) : v = w := by
  refine BitVec.eq_of_getLsbD_eq fun k hk => ?_
  have hm := h (BitVec.ofNat 3 k)
  rwa [bitAt, bitAt, BitVec.toNat_ofNat, Nat.mod_eq_of_lt (by omega)] at hm

/-- The presented bits from bit `n` down to bit 0: they go into `SH`, one after another (R153). -/
theorem presentedBits (hn : s.i.toNat = n) (hp : s.ph = .byteReceive) (hu : s.u = 0) (hd : s.drvSda = .released)
    (hs : s.sched = (bitsFrom n).flatMap (presentBit d) ++ es) :
    ∃ v, (∀ m, bitAt v m = if m.toNat ≤ n then bitAt d m else bitAt s.sh m) ∧
      Runs (7 * (n + 1)) s ((bitsFrom n).flatMap fun _ => rxBitOps) { s with
        drvScl := .drivenLow, sh := v, i := 0, u := 6, rsp := none, sched := es, extScl := false,
        extSda := !bitAt d 0 } := by
  induction n generalizing s with
  | zero =>
    have hi : s.i = 0 := BitVec.eq_of_toNat_eq hn
    have h := presentedBit (d := d) (es := es) hp hu hd (by rw [hs, hi]; rfl)
    rw [hi] at h
    refine ⟨_, fun m => ?_, h⟩
    have hm : m = 0 ↔ m.toNat ≤ 0 := by bv_omega
    rw [bitAt_setBitAt, if_congr hm rfl rfl]
    split
    next h0 => rw [hm.2 h0]
    next => rfl
  | succ n ih =>
    have hi : s.i = BitVec.ofNat 3 (n + 1) := by bv_omega
    have h0 : s.i ≠ 0 := by bv_omega
    have hpred : (s.i - 1).toNat = n := by bv_omega
    have hsplit : 7 * (n + 1 + 1) = 7 + 7 * (n + 1) := by omega
    have h := presentedBit (d := d) (es := (bitsFrom n).flatMap (presentBit d) ++ es) hp hu hd
      (by rw [hs, hi, bitsFrom, List.flatMap_cons, List.append_assoc])
    rw [if_neg h0, if_neg h0] at h
    obtain ⟨v, hv, hrun⟩ := ih (s := { s with
      drvScl := .drivenLow, sh := setBitAt s.sh s.i (bitAt d s.i), i := s.i - 1, u := 0, rsp := none,
      sched := (bitsFrom n).flatMap (presentBit d) ++ es, extScl := false, extSda := !bitAt d s.i }) hpred hp rfl hd rfl
    refine ⟨v, fun m => ?_, hsplit ▸ h.trans hrun⟩
    rw [hv, bitAt_setBitAt]
    by_cases hm : m = s.i
    · rw [if_pos hm, hm, ite_self, if_pos hn.le]
    · have hle : m.toNat ≤ n ↔ m.toNat ≤ n + 1 := by bv_omega
      rw [if_neg hm, if_congr hle rfl rfl]

/-- The eight presented bits of a byte: `SH` holds the byte (R153). -/
theorem presentedByteBits (hi : s.i = 7) (hp : s.ph = .byteReceive) (hu : s.u = 0) (hd : s.drvSda = .released)
    (hs : s.sched = (bitsFrom 7).flatMap (presentBit d) ++ es) :
    Runs 56 s ((bitsFrom 7).flatMap fun _ => rxBitOps) { s with
      drvScl := .drivenLow, sh := d, i := 0, u := 6, rsp := none, sched := es, extScl := false,
      extSda := !bitAt d 0 } := by
  obtain ⟨v, hv, h⟩ := presentedBits (n := 7) (by rw [hi]; rfl) hp hu hd hs
  obtain rfl : v = d := eq_of_bitAt_eq fun m => (hv m).trans (if_pos (by omega))
  exact h

/-- One presented byte, from the first bit to the dispatch: it goes into `RB[J]` (R153 to R155). -/
theorem presentedByte (hr : Receiving c s) (hc : c < s.nreq.toNat) (hs : s.sched = presentByte d ++ es) :
    ∃ t, Runs 68 s (rxByteOps (c + 1 = s.nreq.toNat)) t ∧ Receiving (c + 1) t ∧ t.rb = Memory.write s.rb c d ∧
      t.nreq = s.nreq ∧ t.sched = es := by
  obtain ⟨hp, rfl, hi⟩ := hr.more hc
  have hj : s.j < s.nreq := hc
  have hlast : lastByte s = decide (s.j.toNat + 1 = s.nreq.toNat) := Bool.eq_iff_iff.2 (by simpa using lastByte_iff hj)
  rw [presentByte_eq, List.append_assoc] at hs
  have hbits := presentedByteBits hi hp hr.u hr.drvSda hs
  have hstored := hbits.trans (storeAndAnswer (es := List.replicate 9 .block ++ es) (by exact hp) rfl
    (by show s.j.toNat < 255; bv_omega) rfl)
  have hpulsed := hstored.trans (acknowledgmentPulse (es := .block :: es) (by exact hp) rfl rfl rfl)
  have h := hpulsed.trans (byteReceived (by exact hp) rfl (by exact hj) rfl)
  have hnext : (s.j + 1).toNat = s.j.toNat + 1 := by bv_omega
  refine ⟨_, ⟨h.ran, h.trace.trans ?_⟩, ⟨hr.mode, rfl, rfl, rfl, rfl, fun hlt => ⟨if_pos hlt, hnext, if_pos hlt⟩,
    fun heq => if_neg heq.not_lt⟩, rfl, rfl, rfl⟩
  rw [← hlast]
  rfl

/-- The presented bytes `ds` after the first `c`, of which the last is the last asked for: they go into `RB` from index
`c` on, and nothing else of `RB` changes. -/
theorem presentedBytes (hr : Receiving c s) (hc : c + ds.length = s.nreq.toNat)
    (hs : s.sched = ds.flatMap presentByte ++ es) :
    ∃ t, Runs (68 * ds.length) s ((List.range ds.length).flatMap fun k => rxByteOps (c + k + 1 = s.nreq.toNat)) t ∧
      Receiving (c + ds.length) t ∧ t.nreq = s.nreq ∧ t.sched = es ∧
      (∀ k (h : k < ds.length), Memory.read t.rb (c + k) = ds[k]) ∧
      ∀ k < c, Memory.read t.rb k = Memory.read s.rb k := by
  induction ds generalizing c s with
  | nil => exact ⟨s, .nil s, hr, rfl, hs, fun k h => absurd h (Nat.not_lt_zero k), fun _ _ => rfl⟩
  | cons d ds ih =>
    rw [List.length_cons] at hc
    rw [List.flatMap_cons, List.append_assoc] at hs
    obtain ⟨v, hbyte, hv, hrb, hnreq, hsched⟩ := presentedByte hr (by omega) hs
    obtain ⟨t, hrest, ht, htn, hts, hread, hkept⟩ := ih hv (by rw [hnreq]; omega) hsched
    have hfirst : Memory.read t.rb c = d := by rw [hkept c c.lt_succ_self, hrb, Memory.read_write_same]
    have hall := hbyte.trans hrest
    rw [hnreq] at hall
    have hsteps : 68 * (ds.length + 1) = 68 + 68 * ds.length := by omega
    have hcount : c + (ds.length + 1) = c + 1 + ds.length := by omega
    have hops : ((List.range (ds.length + 1)).flatMap fun k => rxByteOps (c + k + 1 = s.nreq.toNat)) =
        rxByteOps (c + 1 = s.nreq.toNat) ++
          (List.range ds.length).flatMap fun k => rxByteOps (c + 1 + k + 1 = s.nreq.toNat) := by
      rw [List.range_succ_eq_map, List.flatMap_cons, List.flatMap_map, Nat.add_zero]
      refine congrArg (_ ++ ·) (congrArg (List.flatMap · _) (funext fun k => ?_))
      rw [Nat.succ_eq_add_one, Nat.add_right_comm c 1 k, Nat.add_assoc c k 1]
    refine ⟨t, ?_, ?_, htn.trans hnreq, hts, fun k h => ?_, fun k h => ?_⟩
    · rw [List.length_cons, hsteps, hops]
      exact hall
    · rw [List.length_cons, hcount]
      exact ht
    · cases k with
      | zero => exact hfirst
      | succ k =>
        have hk := hread k (Nat.lt_of_succ_lt_succ h)
        rwa [Nat.add_assoc, Nat.add_comm 1 k] at hk
    · rw [hkept k (h.trans c.lt_succ_self), hrb, Memory.read_write_other _ _ h.ne]

/-! ### STOP -/

/-- STOP of a read, turn after turn (R157, R158). -/
theorem scheduledStop (hp : s.ph = .stop) (hu : s.u = 0) (hm : s.mode = .r)
    (hs : s.sched = List.replicate 7 .block) :
    Runs 7 s stopOps { s with
      drvScl := .released, drvSda := .released, lastok := true, rxcnt := s.nreq, len := 0, ph := .idle, u := 6,
      rsp := some (responseWord false true s.nreq), sched := [] } := by
  obtain ⟨r, rfl⟩ : ∃ r : State, s = { r with ph := .stop, u := 0, mode := .r, sched := List.replicate 7 .block } :=
    ⟨s, by rw [← hp, ← hu, ← hm, ← hs]⟩
  have h : Runs 7 { r with ph := .stop, u := 0, mode := .r, sched := List.replicate 7 .block } _ _ :=
    .step .sp0 rfl rfl rfl rfl <| .step .sp1 rfl rfl rfl rfl <| .step .sp2 rfl rfl rfl rfl <|
    .step .sp3 rfl rfl rfl rfl <| .step .sp4 rfl rfl rfl rfl <| .step .sp5 rfl rfl rfl rfl <|
    .step .sp6 rfl rfl rfl rfl <| .nil _
  exact h

/-! ### The whole read -/

/-- The read under the schedule of R193's second clause, to its end. -/
theorem presentedRead_run (hp : s.ph = .start) (hu : s.u = 0) (hm : s.mode = .r) (hlen : s.nreq.toNat = ds.length)
    (hx : s.extScl = false) (hd : s.extSda = true)
    (hs : s.sched = List.replicate 60 .block ++ ds.flatMap presentByte ++ List.replicate 7 .block) :
    ∃ t, Runs (67 + 68 * ds.length) s
        (startOps ++ txByteOps (Memory.read s.tb 0) ++ ackOkOps ++ rxOps ds.length ++ stopOps) t ∧
      t.rsp = some (responseWord false true s.nreq) ∧ t.lastok = true ∧ t.rxcnt = s.nreq ∧ t.len = 0 ∧ t.ph = .idle ∧
      t.drvScl = .released ∧ t.drvSda = .released ∧ ∀ k (h : k < ds.length), Memory.read t.rb k = ds[k] := by
  rw [List.append_assoc] at hs
  obtain ⟨a, haddr, ha, -, han, has⟩ := scheduledAddress hp hu hm hx hd hs
  obtain ⟨b, hbytes, hb, hbn, hbs, hread, -⟩ := presentedBytes ha (by rw [Nat.zero_add, han, hlen]) has
  rw [Nat.zero_add] at hb
  rw [han] at hbn
  have hstop := scheduledStop (hb.last (by rw [hbn, hlen])) hb.u hb.mode hbs
  have hall := (haddr.trans hbytes).trans hstop
  have hsteps : 67 + 68 * ds.length = 60 + 68 * ds.length + 7 := by omega
  simp only [han, hlen, Nat.zero_add] at hall hread
  rw [hsteps]
  exact ⟨_, hall, by rw [← hbn], rfl, hbn, rfl, rfl, rfl, rfl, hread⟩

/-- Settles O59: on every bus, by the history of a transaction that reaches STOP; under the schedule, by the run. -/
theorem readReturnsThePresentedBytes : Obligations.ReadReturnsThePresentedBytes := by
  refine ⟨fun s t n hi hp hu hm hr hend hpull => ?_, fun s ds _ hp hu hm hlen hx hd hs => ?_⟩
  · obtain ⟨hti, htlen, hstop⟩ := acknowledgedRead_end hi hp hu hm hr hend hpull
    obtain ⟨hops, hrsp, hok, hcnt, hsamples⟩ := hstop.of_read hm
    obtain ⟨hscl, hsda⟩ := hti.released_idle hend.idle
    exact ⟨hops, hrsp, hok, hcnt, htlen, hscl, hsda, by rw [hsamples, length_rbBits],
      fun j hj => readRb_of_samples hsamples hj (by omega)⟩
  · have hmax : ds.length < 256 := hlen ▸ s.nreq.isLt
    obtain ⟨t, hrun, hrsp, hok, hcnt, htlen, htp, hscl, hsda, hread⟩ := presentedRead_run hp hu hm hlen hx hd hs
    refine ⟨t, hrun.ran, hrun.trace, hrsp, hok, hcnt, htlen, htp, hscl, hsda, fun k hk => ?_⟩
    rw [readRb_eq (by omega), hread k hk, List.getElem?_eq_getElem hk]

end Machine
end Sys2Proof
end

section
/-! PROOFS. The block's exceptions. A command error is a function of the word and of the state it is offered in (R215,
R218), and the step that accepts the word either answers with that error, changing nothing else, or answers no error
(R220). A wait for the clock lasts as long as `BUS` holds the clock, by induction on the schedule (R216). -/

namespace Sys2Proof
namespace Machine

variable {s g t : State} {w r : Word} {ws : List Word} {i : Instr} {e : CmdError} {o : Option CmdError}

/-! ### The command error of a word -/

/-- The command error of a command that decodes: no address set, or an index not below `RXCNT` (R215). -/
def execError (s : State) : Instr → Option CmdError
  | .append _ | .execw | .execr _ => if s.len = 0 then some .noAddress else none
  | .rdrx n => if s.rxcnt ≤ n then some .rxIndex else none
  | .init | .setaddr _ | .rdstat => none

/-- The command error of a word offered in `IDLE`: that of the decoder first, then that of the command (R218). -/
def wordError (s : State) (w : Word) : Option CmdError :=
  match decode s.cfg.variant w with
  | .err e => some e
  | .ok i => execError s i

theorem wordError_of_err (hd : decode s.cfg.variant w = .err e) : wordError s w = some e := by
  simp only [wordError, hd]

theorem wordError_of_ok (hd : decode s.cfg.variant w = .ok i) : wordError s w = execError s i := by
  simp only [wordError, hd]

/-- A command that decodes raises the last two errors of R215 alone. -/
theorem execError_cases (h : execError s i = some e) : e = .noAddress ∨ e = .rxIndex := by
  cases i with
  | append b | execw | execr n => exact .inl (Option.some.inj (Option.ite_none_right_eq_some.1 h).2).symm
  | rdrx n => exact .inr (Option.some.inj (Option.ite_none_right_eq_some.1 h).2).symm
  | init | setaddr a7 | rdstat => cases h

/-- The first two errors of R215 are the decoder's. -/
theorem wordError_eq_decodeError_iff (he : e = .illegalOpcode ∨ e = .reservedOperand) :
    wordError s w = some e ↔ decode s.cfg.variant w = .err e := by
  cases hd : decode s.cfg.variant w with
  | err f => rw [wordError_of_err hd, Option.some_inj, Decoded.err.injEq]
  | ok i =>
    rw [wordError_of_ok hd]
    refine iff_of_false (fun h => ?_) nofun
    obtain rfl | rfl := he <;> simpa using execError_cases h

/-- The last two are the command's. -/
theorem wordError_eq_execError_iff (he : e = .noAddress ∨ e = .rxIndex) :
    wordError s w = some e ↔ ∃ i, decode s.cfg.variant w = .ok i ∧ execError s i = some e := by
  cases hd : decode s.cfg.variant w with
  | err f =>
    rw [wordError_of_err hd]
    refine iff_of_false (fun h => ?_) nofun
    cases h
    obtain rfl | rfl := he <;> simpa using decode_err_cases hd
  | ok i => simp [wordError_of_ok hd]

/-- R215, code `0x03`. -/
theorem wordError_eq_noAddress_iff : wordError s w = some .noAddress ↔ s.len = 0 ∧
    (decode s.cfg.variant w = .ok .execw ∨ (∃ b, decode s.cfg.variant w = .ok (.append b)) ∨
      ∃ n, decode s.cfg.variant w = .ok (.execr n)) := by
  rw [wordError_eq_execError_iff (.inl rfl)]
  constructor
  · rintro ⟨i, hd, h⟩
    cases i with
    | append b => exact ⟨by simpa [execError] using h, .inr (.inl ⟨b, hd⟩)⟩
    | execw => exact ⟨by simpa [execError] using h, .inl hd⟩
    | execr n => exact ⟨by simpa [execError] using h, .inr (.inr ⟨n, hd⟩)⟩
    | rdrx n => simp [execError] at h
    | init | setaddr a7 | rdstat => cases h
  · rintro ⟨hl, hd | ⟨b, hd⟩ | ⟨n, hd⟩⟩ <;> exact ⟨_, hd, if_pos hl⟩

/-- R215, code `0x04`. -/
theorem wordError_eq_rxIndex_iff : wordError s w = some .rxIndex ↔
    ∃ n : BitVec 8, decode s.cfg.variant w = .ok (.rdrx n) ∧ s.rxcnt.toNat ≤ n.toNat := by
  rw [wordError_eq_execError_iff (.inr rfl)]
  constructor
  · rintro ⟨i, hd, h⟩
    cases i with
    | rdrx n => exact ⟨n, hd, by simpa [execError, BitVec.le_def] using h⟩
    | append b | execw | execr n => simp [execError] at h
    | init | setaddr a7 | rdstat => cases h
  · rintro ⟨n, hd, hn⟩
    exact ⟨_, hd, if_pos hn⟩

/-! ### The answer to a word -/

/-- The response word of a command error (R96, R214). -/
def errorWord (e : CmdError) : Word := responseWord true false (errorCode e)

theorem errorWord_mem (e : CmdError) : errorWord e ∈ [0x8001, 0x8002, 0x8003, 0x8004] := by
  cases e <;> decide

/-- The four codes of R215 differ. -/
theorem errorWord_injective : Function.Injective errorWord := by
  intro e f
  cases e <;> cases f <;> decide

/-- How a step from `s` answers a word: with its command error, and all else is kept; or, where it has none, without
an error or not at all (R214, R220). -/
inductive AnsweredWith (s : State) : Option CmdError → State → Prop
  | error (e : CmdError) : AnsweredWith s (some e) { s with rsp := some (errorWord e) }
  | noError {t : State} (h : ∀ r, t.rsp = some r → r.getLsbD 15 = false) : AnsweredWith s none t

theorem AnsweredWith.of_respond (a : Bool) (v : Byte) (u : State) : AnsweredWith s none (respond false a v u) :=
  .noError fun _ hr => by cases hr; exact responseWord_error ..

theorem AnsweredWith.of_silent (h : t.rsp = none) : AnsweredWith s none t :=
  .noError fun _ hr => by simp [h] at hr

/-- An answer with `E = 1` is that of the command error (R96, R214). -/
theorem AnsweredWith.eq_some (h : AnsweredWith s o t) (hr : t.rsp = some r) (hE : r.getLsbD 15 = true) :
    ∃ e, o = some e ∧ r = errorWord e ∧ t = { s with rsp := some r } := by
  cases h with
  | error e => cases hr; exact ⟨e, rfl, rfl, rfl⟩
  | noError h => rw [h r hr] at hE; cases hE

/-- The response is an error word exactly when the command error is that one. -/
theorem AnsweredWith.rsp_iff (h : AnsweredWith s o t) : t.rsp = some (errorWord e) ↔ o = some e := by
  constructor
  · intro hr
    obtain ⟨f, rfl, hf, -⟩ := h.eq_some hr (responseWord_error ..)
    rw [errorWord_injective hf]
  · rintro rfl
    cases h
    rfl

/-- A command of the variant answers as `execError` says. -/
theorem exec_answeredWith (hi : i.wellFormed s.cfg.variant = true) (hr : s.rsp = none) (h : exec i s = .next t) :
    AnsweredWith s (execError s i) t := by
  cases i with
  | init => obtain ⟨-, h⟩ := whenIdle_next h; cases h; exact .of_respond ..
  | setaddr a7 => obtain ⟨-, h⟩ := whenIdle_next h; cases h; exact .of_respond ..
  | append b8 =>
    obtain ⟨-, ⟨hl, rfl⟩ | ⟨hl, -, rfl⟩ | ⟨hl, -, rfl⟩⟩ := execAppend_cases h
    · rw [execError, if_pos hl]; exact .error _
    · rw [execError, if_neg hl]; exact .of_respond ..
    · rw [execError, if_neg hl]; exact .of_respond ..
  | execw =>
    obtain ⟨-, ⟨hl, rfl⟩ | ⟨hl, -, rfl⟩ | ⟨hl, -, rfl⟩⟩ := execExecw_cases h
    · rw [execError, if_pos hl]; exact .error _
    · rw [execError, if_neg hl]; exact .of_silent hr
    · rw [execError, if_neg hl]; exact .of_silent hr
  | execr n8 =>
    obtain ⟨-, ⟨hv, -⟩ | ⟨-, hl, rfl⟩ | ⟨-, hl, rfl⟩⟩ := execExecr_cases h
    · rw [hv] at hi; cases hi
    · rw [execError, if_pos hl]; exact .error _
    · rw [execError, if_neg hl]; exact .of_silent hr
  | rdrx n8 =>
    obtain ⟨-, ⟨hv, -⟩ | ⟨-, hn, rfl⟩ | ⟨-, hn, rfl⟩⟩ := execRdrx_cases h
    · rw [hv] at hi; cases hi
    · rw [execError, if_pos hn]; exact .error _
    · rw [execError, if_neg hn]; exact .of_respond ..
  | rdstat => obtain ⟨-, h⟩ := whenIdle_next h; cases h; exact .of_respond ..

/-- The step that accepts a word answers as `wordError` says (R99, R218). -/
theorem step_answeredWith (hg : grant s = some g) (hp : s.ph = .idle) (hc : s.cmds = w :: ws) :
    ∃ t, step s = .next t ∧ AnsweredWith { g with cmds := ws } (wordError s w) t := by
  have hf := grant_frame hg
  cases hd : decode s.cfg.variant w with
  | err e => exact ⟨_, step_of_decode_err hg hp hc hd, wordError_of_err hd ▸ .error e⟩
  | ok i =>
    have hi : i.wellFormed g.cfg.variant = true := by rw [hf]; exact (decode_eq_ok_iff.1 hd).2
    have he : wordError s w = execError { g with cmds := ws } i := by rw [wordError_of_ok hd, hf]; rfl
    obtain ⟨t, ht⟩ := exists_exec (s := { g with cmds := ws }) i (by rw [hf]; exact hp)
    exact ⟨t, (step_of_decode_ok hg hp hc hd).trans ht, he ▸ exec_answeredWith hi (by rw [hf]) ht⟩

/-- Settles O25: an answer with `E = 1` is that of the word's command error, and in `IDLE` no micro-operation runs. -/
theorem commandErrorChangesNothing : Obligations.CommandErrorChangesNothing := by
  intro s g t w r ws hg hp hc hs hr hE
  obtain ⟨t', hs', ha⟩ := step_answeredWith hg hp hc
  cases hs.symm.trans hs'
  obtain ⟨e, -, rfl, ht⟩ := ha.eq_some hr hE
  exact ⟨ht, completedOp_idle hp, errorWord_mem e⟩

/-- Settles O26: the answer is an error word exactly when `wordError` is that error, which has its one cause. -/
theorem eachErrorCodeHasItsCause : Obligations.EachErrorCodeHasItsCause := by
  intro s g w ws hg hp hc
  obtain ⟨t, hs, ha⟩ := step_answeredWith hg hp hc
  refine ⟨t, hs, ?_, ?_, ?_, ?_, fun r hr hE => ?_⟩
  · exact (ha.rsp_iff (e := .illegalOpcode)).trans (wordError_eq_decodeError_iff (.inl rfl))
  · exact (ha.rsp_iff (e := .reservedOperand)).trans (wordError_eq_decodeError_iff (.inr rfl))
  · exact (ha.rsp_iff (e := .noAddress)).trans wordError_eq_noAddress_iff
  · exact (ha.rsp_iff (e := .rxIndex)).trans wordError_eq_rxIndex_iff
  · obtain ⟨e, -, rfl, -⟩ := ha.eq_some hr hE
    exact errorWord_mem e

/-! ### A wait for the clock (R216) -/

/-- The engine is at one of its two waits for the clock, which another participant holds low (R156, R216). -/
structure Stalled (s : State) : Prop where
  wait : labelAt s.ph s.u = some .rx2 ∨ labelAt s.ph s.u = some .rx11
  released : s.drvScl = .released
  pulled : s.extScl = true

theorem Stalled.ne_idle (h : Stalled s) : s.ph ≠ .idle := by
  intro hp
  simpa [hp] using h.wait

/-- The turn of a stalled engine changes nothing (R126). -/
theorem Stalled.blockStep_eq (h : Stalled s) : blockStep s = .next s := by
  have hv : level s .scl = false := by simp [level, extOf_scl, h.pulled]
  rw [blockStep_busy h.ne_idle]
  obtain hl | hl := h.wait
  · rw [engineStep_of_label hl, runLabel_rx2 s h.released, hv]; rfl
  · rw [engineStep_of_label hl, runLabel_rx11 s h.released, hv]; rfl

/-- Events that keep `SCL` held low by another participant, and `rst` low. -/
def KeepsClockHeld (v : Event) : Prop := v = .block ∨ ∃ b, v = .bus true b

/-- Such an event changes only the schedule, the response port and the pull of `SDA`. -/
theorem Stalled.step_eq {v : Event} {es : List Event} (h : Stalled s) (hs : s.sched = v :: es)
    (hv : KeepsClockHeld v) : ∃ b, step s = .next { s with sched := es, rsp := none, extSda := b } := by
  obtain rfl | ⟨b, rfl⟩ := hv
  · have hg : grant s = some { s with sched := es, rsp := none } := by simp only [grant, hs]; rfl
    have hst : Stalled { s with sched := es, rsp := none } := ⟨h.wait, h.released, h.pulled⟩
    exact ⟨s.extSda, (step_of_grant hg).trans hst.blockStep_eq⟩
  · refine ⟨b, ?_⟩
    have hb : step s = .next (busStep true b (clearRsp { s with sched := es })) := by simp only [step, turn, hs]
    rw [hb, ← h.pulled]
    rfl

/-- A run over such events changes no more, however long it is; its first step empties the response port. -/
theorem Stalled.runSteps_eq {es : List Event} (h : Stalled s) (hs : s.sched = es)
    (hes : ∀ v ∈ es, KeepsClockHeld v) :
    ∃ a b, runSteps es.length s = .next { s with sched := [], rsp := a, extSda := b } ∧
      (s.rsp = none ∨ es ≠ [] → a = none) := by
  induction es generalizing s with
  | nil => exact ⟨s.rsp, s.extSda, (runSteps_zero s).trans (by rw [← hs]), fun hr => hr.resolve_right (· rfl)⟩
  | cons v es ih =>
    rw [List.forall_mem_cons] at hes
    obtain ⟨hv, hes⟩ := hes
    obtain ⟨b, hb⟩ := h.step_eq hs hv
    obtain ⟨a, c, hrun, ha⟩ := ih (s := { s with sched := es, rsp := none, extSda := b })
      ⟨h.wait, h.released, h.pulled⟩ rfl hes
    exact ⟨a, c, (runSteps_succ _ hb).trans hrun, fun _ => ha (.inl rfl)⟩

/-- Settles O45: the run keeps the position, which is outside `IDLE`. -/
theorem stallLastsWhileTheClockIsHeld : Obligations.StallLastsWhileTheClockIsHeld := by
  intro s es hw hd hx hs hes
  have h : Stalled s := ⟨hw, hd, hx⟩
  obtain ⟨a, b, hrun, ha⟩ := h.runSteps_eq hs hes
  exact ⟨_, hrun, rfl, fun hne => ha (.inr hne), by simp [busy, h.ne_idle], by simp [cmdReady, h.ne_idle]⟩

end Machine
end Sys2Proof
end

section
/-! PROOFS. The reset cycle, in the block, in what is outside it and on its ports (R240, R242), and the least durations
of the routines, as sums of delays over every configuration (R263). -/

namespace Sys2Proof
namespace Machine

variable {s t : State} {es : List Event}

/-! ### The reset cycle -/

theorem step_of_rst (hs : s.sched = .rst :: es) : step s = .next (resetBlock { s with sched := es }) := by
  simp only [step_eq_turn, turn, hs]

theorem rstIn_iff : rstIn s = true ↔ ∃ fs, s.sched = .rst :: fs := by
  rcases hs : s.sched with _ | ⟨v, fs⟩
  · simp [rstIn, hs]
  · cases v <;> simp [rstIn, hs]

/-- `cmd_ready` is `PH = IDLE`, but 0 while `rst` is 1 (R90, R240). -/
theorem cmdReady_iff : cmdReady s = true ↔ s.ph = .idle ∧ ∀ fs, s.sched ≠ .rst :: fs := by
  rw [cmdReady, Bool.and_eq_true, decide_eq_true_iff, Bool.not_eq_true', ← Bool.not_eq_true, rstIn_iff, not_exists]

theorem cmdReady_of_rst (hs : s.sched = .rst :: es) : cmdReady s = false :=
  Bool.eq_false_iff.2 fun h => (cmdReady_iff.1 h).2 es hs

theorem rspOut_of_next (h : step s = .next t) : rspOut s = t.rsp := by rw [rspOut, h]

theorem rspValid_of_rst (hs : s.sched = .rst :: es) : rspValid s = false := by
  rw [rspValid, rspOut_of_next (step_of_rst hs), resetBlock_rsp, Option.isSome_none]

/-- Settles O12: the cycle writes the block of `Block.reset` and the response port alone; the block is in `IDLE` after
it, so that `cmd_ready` says whether `rst` stays high. -/
theorem resetCycleEndsEverything : Obligations.ResetCycleEndsEverything := by
  intro s es hs
  have hready : cmdReady (resetBlock { s with sched := es }) = true ↔ ∀ fs, es ≠ .rst :: fs :=
    cmdReady_iff.trans (and_iff_right rfl)
  exact ⟨_, step_of_rst hs, rfl, rfl, rfl, rfl, rfl, rfl, rfl, rfl, rfl, rfl, rfl, rfl, rfl, rfl, rfl, rfl, rfl, rfl,
    rfl, cmdReady_of_rst hs, rspValid_of_rst hs, hready⟩

/-! ### The least durations (R263) -/

/-- Eight bits of one duration take eight times that. -/
theorem bitOrder_flatMap_minTime {c : Config} {f : BitVec 3 → List MicroOp} {d : Nat}
    (h : ∀ n, ((f n).map (MicroOp.minTime c)).sum = d) :
    ((bitOrder.flatMap f).map (MicroOp.minTime c)).sum = 8 * d := by
  simp only [bitOrder, List.flatMap_cons, List.flatMap_nil, List.map_append, List.sum_append, h, List.map_nil,
    List.sum_nil]
  omega

section
variable (c : Config)

theorem startOps_minTime : (startOps.map (MicroOp.minTime c)).sum = c.tStartSetup + c.tStartHold := by
  simp [startOps, MicroOp.minTime, Config.delay]

theorem stopOps_minTime : (stopOps.map (MicroOp.minTime c)).sum = c.tStopSetup + c.tStopHigh + c.tStopIdle := by
  simp [stopOps, MicroOp.minTime, Config.delay, Nat.add_assoc]

theorem txBitOps_minTime (b : Byte) (n : BitVec 3) :
    ((txBitOps b n).map (MicroOp.minTime c)).sum = c.tTxSetup + c.tTxHigh + c.tTxLow := by
  simp [txBitOps, MicroOp.minTime, Config.delay, Nat.add_assoc]

theorem rxBitOps_minTime : (rxBitOps.map (MicroOp.minTime c)).sum = c.tRxLow + c.tRxHigh := by
  simp [rxBitOps, MicroOp.minTime, Config.delay]

/-- The acknowledgment slot of a received byte takes as long with an ACK as with a NACK. -/
theorem rxAckOps_minTime (last : Bool) : ((rxAckOps last).map (MicroOp.minTime c)).sum =
    c.tRxAckPre + c.tRxAckSetup + c.tRxAckHigh + c.tRxAckLow + c.tRxAckFinal := by
  cases last <;> simp [rxAckOps, MicroOp.minTime, Config.delay, Nat.add_assoc]

theorem ackedByteOps_minTime (b : Byte) : ((txByteOps b ++ ackOkOps).map (MicroOp.minTime c)).sum =
    8 * (c.tTxSetup + c.tTxHigh + c.tTxLow) + c.tTxAckSample + c.tTxAckSettle := by
  rw [txByteOps, List.map_append, List.map_append, List.sum_append, List.sum_append,
    bitOrder_flatMap_minTime (txBitOps_minTime c b)]
  simp [ackOkOps, MicroOp.minTime, Config.delay]

theorem rxByteOps_minTime (last : Bool) : ((rxByteOps last).map (MicroOp.minTime c)).sum =
    8 * (c.tRxLow + c.tRxHigh) +
      (c.tRxAckPre + c.tRxAckSetup + c.tRxAckHigh + c.tRxAckLow + c.tRxAckFinal) := by
  rw [rxByteOps, List.map_append, List.sum_append, bitOrder_flatMap_minTime fun _ => rxBitOps_minTime c,
    rxAckOps_minTime]

end

/-- Settles O42: each duration is a sum of delays, taken at the defaults of R262. -/
theorem defaultDelaysAndDurations : Obligations.DefaultDelaysAndDurations :=
  ⟨rfl, startOps_minTime .reference, ackedByteOps_minTime .reference, rxByteOps_minTime .reference,
    stopOps_minTime .reference⟩

end Machine
end Sys2Proof
end
